-- ==== Sys2Proof/Word.lean ====
section
/-! DEFINITION. The word types of the SHT conversion block: the widths of its ports and registers
(spec/00_scope.md R8, spec/10_state.md R20, R42). -/

namespace Sys2Proof

/-- An operation-control word, port `CTRL` (R8, R50). -/
abbrev CtrlWord := BitVec 8

/-- The selector field `CTRL[6:4]` (R50, R54): three bits, never sign-extended or scaled. -/
abbrev Sel := BitVec 3

/-- A 16-bit word: the ports `A`, `B` and `CMD`, `STATUS`, a command word, a raw word, a limit word
(R8, R13). -/
abbrev Word := BitVec 16

/-- A 32-bit result register word, `R0` and `R1` (R8). -/
abbrev DWord := BitVec 32

end Sys2Proof
end

