-- ==== Sys2Proof/Syntax.lean ====
section
/-! DEFINITION. The operations of the block, one constructor per row of spec/opcode_table.json, and the request that
carries one (spec/30_encoding.md R50 to R52). -/

namespace Sys2Proof

/-- An operation with the operands it reads (R51). A field the operation ignores (R51, R53) is no part of it. -/
inductive Instr where
  /-- MEASCMD: select the active measurement command (R74). -/
  | measCmd
  /-- SETPM: set the power mode, 3-way (R75). -/
  | setPm (a : Word)
  /-- ENLPM: enable low-power mode, Boolean (R76). -/
  | enLpm (a : Word)
  /-- FIXCMD: select a fixed command (R77). -/
  | fixCmd (sel : Sel)
  /-- CONV: decode a raw temperature word `a` and a raw humidity word `b` (R95). -/
  | conv (a b : Word)
  /-- THDENC: encode humidity `a` and temperature `b` into a limit word (R108). -/
  | thdEnc (sel : Sel) (a b : Word)
  /-- THDDEC: decode the limit word `a` (R109). -/
  | thdDec (sel : Sel) (a : Word)
  /-- THDRCMD: select the alert-threshold read command (R110). -/
  | thdRCmd (sel : Sel)
  deriving DecidableEq, Repr

/-- A request: the three words presented together in one cycle (R50). -/
structure Request where
  ctrl : CtrlWord
  a : Word
  b : Word
  deriving DecidableEq, Repr

end Sys2Proof
end

