-- ==== Sys2Proof/WellFormed.lean ====
section
/-! DEFINITION. Which operations carry a selector the spec defines (spec/30_encoding.md R53). The widths of the operands are
in their types. An operation that is not well formed still runs: it performs `fail InvalidParams` (R77, R101). -/

namespace Sys2Proof

/-- A fixed-command selector is defined for 0, 1 and 2 (R53, R77). -/
def fixSelDefined (sel : Sel) : Bool := decide (sel.toNat ≤ 2)

/-- An alert-threshold selector is defined for 0 to 3 (R53, R101). -/
def alertSelDefined (sel : Sel) : Bool := decide (sel.toNat ≤ 3)

/-- The operation's selector, where it has one, is defined (log 13). -/
def Instr.wellFormed : Instr → Bool
  | .measCmd => true
  | .setPm _ => true
  | .enLpm _ => true
  | .fixCmd sel => fixSelDefined sel
  | .conv _ _ => true
  | .thdEnc sel _ _ => alertSelDefined sel
  | .thdDec sel _ => alertSelDefined sel
  | .thdRCmd sel => alertSelDefined sel

end Sys2Proof
end

