-- ==== Sys2Proof/Decode.lean ====
section
/-! DEFINITION. The decoder and the encoder of the 8-bit control word (spec/30_encoding.md R50 to R57, R59). -/

namespace Sys2Proof

/-- Why a control word decodes to no operation: the two ways R55 calls a word reserved. -/
inductive DecodeError where
  /-- `CTRL[7] = 1`. -/
  | reservedBitSet
  /-- `CTRL[3:0]` is 0x0 or one of 0x9..0xF. -/
  | reservedOp
  deriving DecidableEq, Repr

/-- Field `RSV`, bit 7 (R50). -/
def ctrlRsv (c : CtrlWord) : Bool := c.getLsbD 7

/-- Field `SEL`, bits 6..4 (R50). -/
def ctrlSel (c : CtrlWord) : Sel := c.extractLsb' 4 3

/-- Field `OP`, bits 3..0 (R50). -/
def ctrlOp (c : CtrlWord) : BitVec 4 := c.extractLsb' 0 4

/-- The operation of a request (R52, R53, R56). The reserved bit is looked at first (R134). -/
def decode (r : Request) : Except DecodeError Instr :=
  if ctrlRsv r.ctrl then .error .reservedBitSet
  else
    match (ctrlOp r.ctrl).toNat with
    | 1 => .ok .measCmd
    | 2 => .ok (.setPm r.a)
    | 3 => .ok (.enLpm r.a)
    | 4 => .ok (.fixCmd (ctrlSel r.ctrl))
    | 5 => .ok (.conv r.a r.b)
    | 6 => .ok (.thdEnc (ctrlSel r.ctrl) r.a r.b)
    | 7 => .ok (.thdDec (ctrlSel r.ctrl) r.a)
    | 8 => .ok (.thdRCmd (ctrlSel r.ctrl))
    | _ => .error .reservedOp

/-- `CTRL = {0, SEL[2:0], OP[3:0]}` (R59). -/
def ctrlWord (sel : Sel) (op : BitVec 4) : CtrlWord := 0#1 ++ sel ++ op

/-- The request the assembler writes for an operation (R59): `SEL = 0` where it takes no selector, `A = 0` and `B = 0` where
it ignores them. -/
def encode : Instr → Request
  | .measCmd => { ctrl := ctrlWord 0 1, a := 0, b := 0 }
  | .setPm a => { ctrl := ctrlWord 0 2, a := a, b := 0 }
  | .enLpm a => { ctrl := ctrlWord 0 3, a := a, b := 0 }
  | .fixCmd sel => { ctrl := ctrlWord sel 4, a := 0, b := 0 }
  | .conv a b => { ctrl := ctrlWord 0 5, a := a, b := b }
  | .thdEnc sel a b => { ctrl := ctrlWord sel 6, a := a, b := b }
  | .thdDec sel a => { ctrl := ctrlWord sel 7, a := a, b := 0 }
  | .thdRCmd sel => { ctrl := ctrlWord sel 8, a := 0, b := 0 }

/-- The request that a table word stands for (DESIGN CHOICE, log 3): of its `nbits` low bits, bits 7..0 are `CTRL`,
bits 23..8 are `A` and bits 39..24 are `B`, the order in which R59 lists a request; a bit from `nbits` up is 0. -/
def tableRequest (nbits w : Nat) : Request :=
  { ctrl := BitVec.ofNat 8 (w % 2 ^ nbits)
    a := BitVec.ofNat 16 ((w % 2 ^ nbits) >>> 8)
    b := BitVec.ofNat 16 ((w % 2 ^ nbits) >>> 24) }

/-- The operation `decode` reads from a table word (log 3). -/
def decodeTableWord (nbits w : Nat) : Option Instr :=
  match decode (tableRequest nbits w) with
  | .ok i => some i
  | .error _ => none

end Sys2Proof
end

