-- ==== Sys2Proof/Config.lean ====
section
/-! DEFINITION. The elaboration-time parameters of the block (spec/00_scope.md R7,
spec/40_command_select.md R71, R79) and the free values of spec/42_threshold.md R102. -/

namespace Sys2Proof

/-- `CMD_TABLE` (R71): the seventeen command words, under the spec's own names in lowerCamelCase. -/
structure CmdTable where
  measLpmNocs : Word
  measMpmNocs : Word
  measHpmNocs : Word
  measLpmCs : Word
  measMpmCs : Word
  measHpmCs : Word
  readStatus : Word
  clearStatus : Word
  readSerial : Word
  alertRdHs : Word
  alertRdHc : Word
  alertRdLc : Word
  alertRdLs : Word
  alertWrHs : Word
  alertWrHc : Word
  alertWrLc : Word
  alertWrLs : Word
  deriving DecidableEq, Repr

/-- The three measurement codes without clock stretching. -/
def CmdTable.measNocs (t : CmdTable) : List Word := [t.measLpmNocs, t.measMpmNocs, t.measHpmNocs]

/-- The three measurement codes with clock stretching. -/
def CmdTable.measCs (t : CmdTable) : List Word := [t.measLpmCs, t.measMpmCs, t.measHpmCs]

/-- The three timing-invariant commands of FIXCMD. -/
def CmdTable.fixed (t : CmdTable) : List Word := [t.readStatus, t.clearStatus, t.readSerial]

/-- The eight alert-limit commands, the four read commands first. -/
def CmdTable.alert (t : CmdTable) : List Word :=
  [t.alertRdHs, t.alertRdHc, t.alertRdLc, t.alertRdLs, t.alertWrHs, t.alertWrHc, t.alertWrLc, t.alertWrLs]

/-- The constraints R79 puts on every `CMD_TABLE`: (a) the two sets of measurement codes are disjoint,
(b) the eight alert codes are pairwise distinct, (c) the measurement codes of one variant are distinct. -/
abbrev CmdTable.Valid (t : CmdTable) : Prop :=
  (t.measCs.all fun w => !t.measNocs.contains w) = true ∧ t.alert.Nodup ∧ t.measCs.Nodup ∧ t.measNocs.Nodup

/-- `THD_RANGE_POLICY` (R7, R102). -/
inductive ThdRangePolicy where
  /-- Threshold inputs outside the range are clamped to it. -/
  | saturate
  /-- The field of an input outside the range is a draw. -/
  | unspecified
  deriving DecidableEq, Repr

/-- The parameters of R7, fixed at elaboration. -/
structure Config where
  /-- `CLOCK_STRETCH`: the bus-timing variant. -/
  clockStretch : Bool
  /-- `CMD_TABLE`. -/
  cmdTable : CmdTable
  /-- `THD_RANGE_POLICY`. -/
  thdRangePolicy : ThdRangePolicy
  deriving DecidableEq, Repr

/-- Free value (log 7): the `n`-th draw of the 7-bit humidity field `HB` (R102, policy UNSPECIFIED), "any value in
0..127, chosen afresh for each request". It has no body, so nothing is known of it. -/
opaque Config.freeHB : Nat → BitVec 7

/-- Free value (log 7): the `n`-th draw of the 9-bit temperature field `TB` (R102, policy UNSPECIFIED), any value in
0..511. -/
opaque Config.freeTB : Nat → BitVec 9

end Sys2Proof
end

