-- ==== Sys2Proof/Machine/Defaults.lean ====
section
/-! DEFINITION. The parameter values that `State.reset` carries (spec/00_scope.md R7, spec/40_command_select.md R72). -/

namespace Sys2Proof

/-- The default command words of R72. PRESUMED (log 6): R72 marks them "from general knowledge, not in
source". Unsafe where a claim names one of these values. -/
def CmdTable.default : CmdTable where
  measLpmNocs := 0x2416#16
  measMpmNocs := 0x240B#16
  measHpmNocs := 0x2400#16
  measLpmCs := 0x2C10#16
  measMpmCs := 0x2C0D#16
  measHpmCs := 0x2C06#16
  readStatus := 0xF32D#16
  clearStatus := 0x3041#16
  readSerial := 0x3780#16
  alertRdHs := 0xE11F#16
  alertRdHc := 0xE114#16
  alertRdLc := 0xE109#16
  alertRdLs := 0xE102#16
  alertWrHs := 0x611D#16
  alertWrHc := 0x6116#16
  alertWrLc := 0x610B#16
  alertWrLs := 0x6100#16

/-- The parameters `State.reset` carries: `CMD_TABLE` at the defaults of R72 (PRESUMED, log 6), `THD_RANGE_POLICY` at its
default of R7, and `CLOCK_STRETCH` false (DESIGN CHOICE, log 5: R7 gives it no value). -/
def Config.default : Config where
  clockStretch := false
  cmdTable := CmdTable.default
  thdRangePolicy := .saturate

end Sys2Proof
end

