-- ==== Sys2Proof/Machine/State.lean ====
section
/-! DEFINITION. The state of the block (spec/10_state.md R20 to R29), the port samples the host presents
(spec/60_exceptions.md R141), the ways a step can stop, and the state after reset. -/

namespace Sys2Proof.Machine

/-- The values of `ACTIVE_MODE` (R21): the low-, medium- and high-power measurement modes (R14). -/
inductive Mode where
  | lpm
  | mpm
  | hpm
  deriving DecidableEq, Repr

/-- The status codes (R24, R130). The block itself writes only `ok` and `invalidParams`. -/
inductive StatusCode where
  | ok
  | badData
  | crcFail
  | unknownDevice
  | invalidParams
  deriving DecidableEq, Repr

/-- The alert-threshold selectors, in the order of R53. -/
inductive AlertSel where
  | hs
  | hc
  | lc
  | ls
  deriving DecidableEq, Repr

/-- The input ports as one rising edge of `CLK` samples them (R20, R156). -/
structure PortInput where
  rst : Bool
  reqValid : Bool
  ctrl : CtrlWord
  a : Word
  b : Word
  deriving DecidableEq, Repr

/-- The output ports (R20). -/
structure PortOutput where
  rspValid : Bool
  status : Word
  r0 : DWord
  r1 : DWord
  cmd : Word
  cmdValid : Bool
  deriving DecidableEq, Repr

/-- The state. The first seven fields are the block's whole state (R28); the last three are the model's own. -/
structure State where
  /-- `ACTIVE_MODE` (R21). -/
  activeMode : Mode
  /-- `R0` (R25). -/
  r0 : DWord
  /-- `R1` (R25). -/
  r1 : DWord
  /-- `CMD` (R23). -/
  cmd : Word
  /-- `CMD_VALID` (R23). -/
  cmdValid : Bool
  /-- `STATUS` (R24). -/
  status : Word
  /-- `RSP_VALID` (R26). -/
  rspValid : Bool
  /-- The parameters of R7; no step changes them (DESIGN CHOICE, log 4). -/
  config : Config
  /-- What the host presents at the coming edges, the next edge first (DESIGN CHOICE, log 1). -/
  inputs : List PortInput
  /-- The index of the next draw of R102 (DESIGN CHOICE, log 7). -/
  draws : Nat
  deriving DecidableEq, Repr

/-- The faults: none, because "the block never halts, hangs or faults" (R159; log 9). No meaning can raise one. -/
inductive Fault where
  deriving DecidableEq, Repr

/-- The refusals. -/
inductive Refusal where
  /-- Raised by `exec` alone, for an operation of the table that has no meaning yet; safe. No arm of `exec` raises it. -/
  | notModelled (mnemonic : String)
  deriving DecidableEq, Repr

/-- The state after a reset edge (R29), with no further edge presented, at the parameters of `Config.default`. -/
def State.reset : State where
  activeMode := .hpm
  r0 := 0#32
  r1 := 0#32
  cmd := 0x0000#16
  cmdValid := false
  status := 0x0000#16
  rspValid := false
  config := Config.default
  inputs := []
  draws := 0

end Sys2Proof.Machine
end

