-- ==== Sys2Proof/Machine/Operands.lean ====
section
/-! DEFINITION. How the operand ports and the selector are read, and the arithmetic notation of spec/00_scope.md R10.
Operands are widened to mathematical integers before any arithmetic (spec/30_encoding.md R54). -/

namespace Sys2Proof.Machine

/-- `u16(x)`: a port read as an unsigned integer in 0..65535. -/
def u16 (x : Word) : Nat := x.toNat

/-- `s16(x)`: a port read as a two's-complement integer in -32768..32767. -/
def s16 (x : Word) : Int := x.toInt

/-- `trunc_32(v)`: bits 31..0 of an integer, two's complement. -/
def trunc32 (v : Int) : DWord := BitVec.ofInt 32 v

/-- `zext_32(v)` of a 16-bit word. -/
def zext32 (w : Word) : DWord := w.setWidth 32

/-- `round_half_up(n, d) = (2*n + d) div (2*d)`. -/
def roundHalfUp (n d : Nat) : Nat := (2 * n + d) / (2 * d)

/-- `clamp(x, lo, hi) = min(max(x, lo), hi)`. -/
def clamp (x lo hi : Int) : Int := min (max x lo) hi

/-- The alert-threshold selector of a `SEL` field; none for 4..7 (R53, R101). -/
def alertSel (sel : Sel) : Option AlertSel :=
  match sel.toNat with
  | 0 => some .hs
  | 1 => some .hc
  | 2 => some .lc
  | 3 => some .ls
  | _ => none

/-- The mode that SETPM's operand names: 0 LPM, 1 MPM, 2 and every other value HPM (R75). -/
def modeOfCode (a : Word) : Mode :=
  match u16 a with
  | 0 => .lpm
  | 1 => .mpm
  | _ => .hpm

/-- The mode that ENLPM's operand names: LPM for a non-zero value, HPM for zero (R76). -/
def modeOfBool (a : Word) : Mode := if u16 a ≠ 0 then .lpm else .hpm

end Sys2Proof.Machine
end

