-- ==== Sys2Proof/Machine/Flags.lean ====
section
/-! DEFINITION. The status outputs: the 16-bit words of the status codes (spec/10_state.md R24, spec/60_exceptions.md R130)
and the one operation that writes `STATUS`, `CMD_VALID` and `RSP_VALID` (R11, R26). -/

namespace Sys2Proof.Machine

/-- The value of a status code (R130). -/
def StatusCode.value : StatusCode → Int
  | .ok => 0
  | .badData => -1
  | .crcFail => -2
  | .unknownDevice => -3
  | .invalidParams => -4

/-- A status code as `STATUS` holds it: 16 bits, two's complement (R24). -/
def StatusCode.word (c : StatusCode) : Word := BitVec.ofInt 16 c.value

/-- The status outputs of an accepted request: `STATUS`, `CMD_VALID`, and `RSP_VALID <- 1`, which every accepted request
writes (R26). -/
def State.respond (code : StatusCode) (cmdValid : Bool) (s : State) : State :=
  { s with status := code.word, cmdValid := cmdValid, rspValid := true }

end Sys2Proof.Machine
end

