-- ==== Sys2Proof/Machine/Ops.lean ====
section
/-! DEFINITION. The named operations over the registers: the register writes, the three ways a request ends (with a command,
without one, with `fail InvalidParams`), the idle edge and the reset edge, and what the host sees on the ports. -/

namespace Sys2Proof.Machine

/-- `ACTIVE_MODE <- m`. -/
def State.setMode (m : Mode) (s : State) : State := { s with activeMode := m }

/-- `R0 <- v`. -/
def State.setR0 (v : DWord) (s : State) : State := { s with r0 := v }

/-- `R1 <- v`. -/
def State.setR1 (v : DWord) (s : State) : State := { s with r1 := v }

/-- The counter of draws goes on by `k` (log 7). -/
def State.advanceDraws (k : Nat) (s : State) : State := { s with draws := s.draws + k }

/-- A successful request that produces the command word `w`: `CMD` is written only when `CMD_VALID` is written 1 (R23). -/
def State.succeedWithCommand (w : Word) (s : State) : State := { s with cmd := w }.respond .ok true

/-- A successful request that produces no command word: `CMD` holds (R23). -/
def State.succeed (s : State) : State := s.respond .ok false

/-- `fail InvalidParams` (R11, R131): the block's whole error report. No other register is written. The block has no trap,
saves nothing and goes nowhere (R135), so this is all there is to taking an error, and nothing returns from it. -/
def State.failInvalidParams (s : State) : State := s.respond .invalidParams false

/-- An edge with no request: every register holds but `RSP_VALID <- 0` (R153, R154). -/
def State.idle (s : State) : State := { s with rspValid := false }

/-- A reset edge: every register takes its reset value (R29, R150). The parameters are fixed at elaboration (R7), and what the
host presents later and the counter of draws are not the block's (logs 1, 7). -/
def State.resetRegisters (s : State) : State :=
  { State.reset with config := s.config, inputs := s.inputs, draws := s.draws }

/-- The output ports: each is driven directly by the register of the same name (R20). -/
def State.outputs (s : State) : PortOutput :=
  { rspValid := s.rspValid, status := s.status, r0 := s.r0, r1 := s.r1, cmd := s.cmd, cmdValid := s.cmdValid }

/-- The command word the host may issue to the sensor: `CMD` when `CMD_VALID = 1`, nothing otherwise (R132, R141). -/
def PortOutput.issuable (o : PortOutput) : Option Word := if o.cmdValid then some o.cmd else none

/-- The argument word the host sends with a write command after THDENC: `R0[15:0]` (R108, R141). -/
def PortOutput.limitArgument (o : PortOutput) : Word := o.r0.setWidth 16

/-- The result words the host may use: `R0` and `R1` when `STATUS = OK`, nothing otherwise (R132, R141). -/
def PortOutput.results (o : PortOutput) : Option (DWord × DWord) :=
  if o.status = StatusCode.ok.word then some (o.r0, o.r1) else none

end Sys2Proof.Machine
end

