-- ==== Sys2Proof/Machine/CommandSelect.lean ====
section
/-! DEFINITION. The command selector multiplexer (spec/40_command_select.md): the lookups of R73, R77 and R78, and the
meanings of MEASCMD, SETPM, ENLPM and FIXCMD. -/

namespace Sys2Proof.Machine

/-- `MeasCmd(cs, m)` (R73). -/
def measCommand (t : CmdTable) (cs : Bool) (m : Mode) : Word :=
  match cs, m with
  | true, .lpm => t.measLpmCs
  | true, .mpm => t.measMpmCs
  | true, .hpm => t.measHpmCs
  | false, .lpm => t.measLpmNocs
  | false, .mpm => t.measMpmNocs
  | false, .hpm => t.measHpmNocs

/-- The fixed command of FIXCMD's selector; none for 3..7 (R77). -/
def fixedCommand (t : CmdTable) (sel : Sel) : Option Word :=
  match sel.toNat with
  | 0 => some t.readStatus
  | 1 => some t.clearStatus
  | 2 => some t.readSerial
  | _ => none

/-- `AlertWrCmd(s)` (R78). -/
def alertWrCommand (t : CmdTable) : AlertSel → Word
  | .hs => t.alertWrHs
  | .hc => t.alertWrHc
  | .lc => t.alertWrLc
  | .ls => t.alertWrLs

/-- `AlertRdCmd(s)` (R78). -/
def alertRdCommand (t : CmdTable) : AlertSel → Word
  | .hs => t.alertRdHs
  | .hc => t.alertRdHc
  | .lc => t.alertRdLc
  | .ls => t.alertRdLs

/-- MEASCMD (R74). -/
def execMeasCmd (s : State) : Host.Outcome State Fault Refusal :=
  .next (s.succeedWithCommand (measCommand s.config.cmdTable s.config.clockStretch s.activeMode))

/-- SETPM (R75). -/
def execSetPm (a : Word) (s : State) : Host.Outcome State Fault Refusal :=
  .next (s.setMode (modeOfCode a)).succeed

/-- ENLPM (R76). -/
def execEnLpm (a : Word) (s : State) : Host.Outcome State Fault Refusal :=
  .next (s.setMode (modeOfBool a)).succeed

/-- FIXCMD (R77). -/
def execFixCmd (sel : Sel) (s : State) : Host.Outcome State Fault Refusal :=
  match fixedCommand s.config.cmdTable sel with
  | some w => .next (s.succeedWithCommand w)
  | none => .next s.failInvalidParams

end Sys2Proof.Machine
end

