-- ==== Sys2Proof/Machine/Scaler.lean ====
section
/-! DEFINITION. The fixed-point temperature/humidity scaler (spec/41_scaler.md): the two conversions in exact integer
arithmetic and the meaning of CONV. -/

namespace Sys2Proof.Machine

/-- `DecodeT(t)`, in milli-degrees Celsius (R91). -/
def decodeT (t : Nat) : Int := (((21875 * t) >>> 13 : Nat) : Int) - 45000

/-- `DecodeRH(h)`, in milli-percent relative humidity (R92). -/
def decodeRH (h : Nat) : Nat := (12500 * h) >>> 13

/-- CONV (R95). -/
def execConv (a b : Word) (s : State) : Host.Outcome State Fault Refusal :=
  .next ((s.setR0 (trunc32 (decodeT (u16 a)))).setR1 (trunc32 (decodeRH (u16 b)))).succeed

end Sys2Proof.Machine
end

