-- ==== Sys2Proof/Machine/Threshold.lean ====
section
/-! DEFINITION. The alert-threshold compressor/decompressor (spec/42_threshold.md): input conditioning, the conversions in
exact integer arithmetic, and the meanings of THDENC, THDDEC and THDRCMD. -/

namespace Sys2Proof.Machine

/-- `h_eff` of R102; none where the humidity field is a draw. -/
def conditionH (p : ThdRangePolicy) (h : Nat) : Option Nat :=
  match p with
  | .saturate => some (min h 1000)
  | .unspecified => if h ≤ 1000 then some h else none

/-- `t_eff` of R102; none where the temperature field is a draw. -/
def conditionT (p : ThdRangePolicy) (t : Int) : Option Int :=
  match p with
  | .saturate => some (clamp t (-450) 1300)
  | .unspecified => if -450 ≤ t ∧ t ≤ 1300 then some t else none

/-- `ThdEncH(h_eff)` (R103). -/
def thdEncH (h : Nat) : Nat := roundHalfUp (h * 65535) 1000

/-- `ThdEncT(t_eff)` (R104); the division floors. -/
def thdEncT (t : Int) : Nat := ((t + 450) * 65535 / 1750).toNat

/-- The 7-bit humidity field `HB` (R103), or the `n`-th draw (R102, log 7). -/
def fieldHB (p : ThdRangePolicy) (n : Nat) (h : Nat) : BitVec 7 :=
  match conditionH p h with
  | some e => BitVec.ofNat 7 (thdEncH e >>> 9)
  | none => Config.freeHB n

/-- The 9-bit temperature field `TB` (R104), or the `n`-th draw (R102, log 7). -/
def fieldTB (p : ThdRangePolicy) (n : Nat) (t : Int) : BitVec 9 :=
  match conditionT p t with
  | some e => BitVec.ofNat 9 (thdEncT e >>> 7)
  | none => Config.freeTB n

/-- `Limit(h, t) = {HB[6:0], TB[8:0]}` (R105). Its laws with `thdDecH` and `thdDecT` (R111) are `RoundTripLaws` of Safety.lean. -/
def limitWord (p : ThdRangePolicy) (n : Nat) (h : Nat) (t : Int) : Word := fieldHB p n h ++ fieldTB p n t

/-- How far the counter of draws goes on: one where the request draws a field, so that every such request draws afresh
(R102, log 7). -/
def limitDraws (p : ThdRangePolicy) (h : Nat) (t : Int) : Nat :=
  if (conditionH p h).isSome && (conditionT p t).isSome then 0 else 1

/-- `ThdDecH(w)`, in tenths of %RH (R106). -/
def thdDecH (w : Word) : Nat := roundHalfUp (1000 * (w &&& 0xFE00#16).toNat) 65535

/-- `ThdDecT(w)`, in tenths of a degree Celsius (R107); the division floors. -/
def thdDecT (w : Word) : Int := ((((w &&& 0x01FF#16).toNat <<< 7) * 1750 / 65535 : Nat) : Int) - 450

/-- THDENC (R108): the selector check comes before every other effect (R101). -/
def execThdEnc (sel : Sel) (a b : Word) (s : State) : Host.Outcome State Fault Refusal :=
  match alertSel sel with
  | none => .next s.failInvalidParams
  | some x =>
    .next (((s.setR0 (zext32 (limitWord s.config.thdRangePolicy s.draws (u16 a) (s16 b)))).advanceDraws
      (limitDraws s.config.thdRangePolicy (u16 a) (s16 b))).succeedWithCommand (alertWrCommand s.config.cmdTable x))

/-- THDDEC (R109): on an invalid selector `R0` and `R1` are not written (R101, R112). -/
def execThdDec (sel : Sel) (a : Word) (s : State) : Host.Outcome State Fault Refusal :=
  match alertSel sel with
  | none => .next s.failInvalidParams
  | some _ => .next ((s.setR0 (trunc32 (thdDecH a))).setR1 (trunc32 (thdDecT a))).succeed

/-- THDRCMD (R110). -/
def execThdRCmd (sel : Sel) (s : State) : Host.Outcome State Fault Refusal :=
  match alertSel sel with
  | none => .next s.failInvalidParams
  | some x => .next (s.succeedWithCommand (alertRdCommand s.config.cmdTable x))

end Sys2Proof.Machine
end

