-- ==== Sys2Proof/Machine/Dispatch.lean ====
section
/-! DEFINITION. One arm per operation (spec/30_encoding.md R52). -/

namespace Sys2Proof.Machine

/-- The effect of an accepted request (spec/70_reset_and_hazards.md R153). -/
def exec (i : Instr) (s : State) : Host.Outcome State Fault Refusal :=
  match i with
  | .measCmd => Sys2Proof.Machine.execMeasCmd s
  | .setPm a => Sys2Proof.Machine.execSetPm a s
  | .enLpm a => Sys2Proof.Machine.execEnLpm a s
  | .fixCmd sel => Sys2Proof.Machine.execFixCmd sel s
  | .conv a b => Sys2Proof.Machine.execConv a b s
  | .thdEnc sel a b => Sys2Proof.Machine.execThdEnc sel a b s
  | .thdDec sel a => Sys2Proof.Machine.execThdDec sel a s
  | .thdRCmd sel => Sys2Proof.Machine.execThdRCmd sel s

end Sys2Proof.Machine
end

