-- ==== Sys2Proof/Machine/Edge.lean ====
section
/-! DEFINITION. One rising edge of `CLK` (spec/70_reset_and_hazards.md R150, R153): what is sampled, and what it does. -/

namespace Sys2Proof.Machine

/-- The three words of the request port. -/
def PortInput.request (p : PortInput) : Request := { ctrl := p.ctrl, a := p.a, b := p.b }

/-- A request presented with `REQ_VALID = 1` and no reset. -/
def presented (r : Request) : PortInput :=
  { rst := false, reqValid := true, ctrl := r.ctrl, a := r.a, b := r.b }

/-- No reset and no request. -/
def idleInput : PortInput := { rst := false, reqValid := false, ctrl := 0, a := 0, b := 0 }

/-- The ports at the coming edge; where the host's list has ended, it idles (DESIGN CHOICE, log 1). -/
def nextInput (s : State) : PortInput := s.inputs.headD idleInput

/-- The state with the coming edge's port sample taken off the host's list. -/
def State.takeInput (s : State) : State := { s with inputs := s.inputs.tail }

/-- The state with `p` as what the ports hold at the coming edge, and the edges after it as before. -/
def State.putInput (p : PortInput) (s : State) : State := { s with inputs := p :: s.inputs.tail }

/-- An accepted request: the rule of its operation (R153), or, for a reserved control word, `fail InvalidParams` (R55). -/
def accept (r : Request) (s : State) : Host.Outcome State Fault Refusal :=
  match decode r with
  | .ok i => exec i s
  | .error _ => .next s.failInvalidParams

/-- One rising edge with the ports at `p` (R153). Reset wins over a request (R150). -/
def clockEdge (p : PortInput) (s : State) : Host.Outcome State Fault Refusal :=
  if p.rst then .next s.resetRegisters
  else if p.reqValid then accept p.request s
  else .next s.idle

end Sys2Proof.Machine
end

