-- ==== Sys2Proof/Machine/Step.lean ====
section
/-! DEFINITION. One step is one rising edge of `CLK` (spec/70_reset_and_hazards.md R153). -/

namespace Sys2Proof.Machine

/-- The block's step: the ports are sampled at the edge, and only there (R153, R156). -/
def step (s : State) : Host.Outcome State Fault Refusal := clockEdge (nextInput s) s.takeInput

/-- The state in which the coming edge presents the request of a table word (logs 2, 3). -/
def State.withFetchWord (s : State) (nbits w : Nat) : State := s.putInput (presented (tableRequest nbits w))

end Sys2Proof.Machine
end

