-- ==== Sys2Proof/Machine/Assembler.lean ====
section
/-! DEFINITION. The textual syntax of requests (spec/30_encoding.md R59, R60): a line of text to an operation, the
pseudo-instructions, and the listing of a request. The request itself is `encode`. No step depends on this file. What R59
leaves open of the text is log 12. -/

namespace Sys2Proof.Machine

/-- A decimal digit. -/
def decDigit (c : Char) : Option Nat := if '0' ≤ c ∧ c ≤ '9' then some (c.toNat - 48) else none

/-- A hexadecimal digit, of either case. -/
def hexDigit (c : Char) : Option Nat :=
  if '0' ≤ c ∧ c ≤ '9' then some (c.toNat - 48)
  else if 'A' ≤ c ∧ c ≤ 'F' then some (c.toNat - 55)
  else if 'a' ≤ c ∧ c ≤ 'f' then some (c.toNat - 87)
  else none

/-- The number that digits spell, after the digits read so far. -/
def digitsFrom (base : Nat) (digit : Char → Option Nat) (acc : Nat) : List Char → Option Nat
  | [] => some acc
  | c :: cs =>
    match digit c with
    | some d => digitsFrom base digit (acc * base + d) cs
    | none => none

/-- A decimal number of at least one digit. -/
def parseDec (t : List Char) : Option Nat := if t = [] then none else digitsFrom 10 decDigit 0 t

/-- An unsigned 16-bit operand `<a>`: 0..65535, or `0xHHHH`. -/
def parseU16 (t : List Char) : Option Word :=
  match t with
  | ['0', 'x', h3, h2, h1, h0] => (digitsFrom 16 hexDigit 0 [h3, h2, h1, h0]).map (BitVec.ofNat 16)
  | _ =>
    match parseDec t with
    | some n => if n ≤ 65535 then some (BitVec.ofNat 16 n) else none
    | none => none

/-- The signed operand `<b>` of THDENC: -32768..32767, written to `B` as `trunc_16(b)`. -/
def parseS16 (t : List Char) : Option Word :=
  match t with
  | '-' :: ds =>
    match parseDec ds with
    | some n => if n ≤ 32768 then some (BitVec.ofInt 16 (-(n : Int))) else none
    | none => none
  | _ =>
    match parseDec t with
    | some n => if n ≤ 32767 then some (BitVec.ofNat 16 n) else none
    | none => none

/-- A selector written as a number, 0..7. -/
def parseSelNumber (t : List Char) : Option Sel :=
  match parseDec t with
  | some n => if n ≤ 7 then some (BitVec.ofNat 3 n) else none
  | none => none

/-- SETPM's operand: a number, or LPM, MPM, HPM. -/
def parseModeOperand (t : List Char) : Option Word :=
  match String.ofList t with
  | "LPM" => some 0
  | "MPM" => some 1
  | "HPM" => some 2
  | _ => parseU16 t

/-- FIXCMD's selector: a number, or RDSTAT, CLRSTAT, RDSERIAL. -/
def parseFixSel (t : List Char) : Option Sel :=
  match String.ofList t with
  | "RDSTAT" => some 0
  | "CLRSTAT" => some 1
  | "RDSERIAL" => some 2
  | _ => parseSelNumber t

/-- An alert selector: a number, or HS, HC, LC, LS. -/
def parseAlertSel (t : List Char) : Option Sel :=
  match String.ofList t with
  | "HS" => some 0
  | "HC" => some 1
  | "LC" => some 2
  | "LS" => some 3
  | _ => parseSelNumber t

/-- Text without the spaces at its two ends. -/
def trimSpaces (t : List Char) : List Char :=
  ((t.dropWhile (· == ' ')).reverse.dropWhile (· == ' ')).reverse

/-- Text cut at its commas. -/
def splitCommas : List Char → List (List Char)
  | [] => [[]]
  | c :: cs =>
    if c = ',' then [] :: splitCommas cs
    else
      match splitCommas cs with
      | [] => [[c]]
      | p :: ps => (c :: p) :: ps

/-- The mnemonic and the operands of a line; a comment runs from `;` to the line's end. -/
def lineParts (line : List Char) : List Char × List (List Char) :=
  let text := trimSpaces (line.takeWhile (· != ';'))
  let rest := trimSpaces (text.dropWhile (· != ' '))
  (text.takeWhile (· != ' '), if rest = [] then [] else (splitCommas rest).map trimSpaces)

/-- The operation a line of text names, the pseudo-instructions expanded (R59, R60). -/
def parseLine (line : List Char) : Option Instr :=
  match String.ofList (lineParts line).1, (lineParts line).2 with
  | "MEASCMD", [] => some .measCmd
  | "SETPM", [a] => (parseModeOperand a).map .setPm
  | "ENLPM", [a] => (parseU16 a).map .enLpm
  | "FIXCMD", [sel] => (parseFixSel sel).map .fixCmd
  | "CONV", [a, b] => (parseU16 a).bind fun x => (parseU16 b).map fun y => .conv x y
  | "THDENC", [sel, a, b] =>
    (parseAlertSel sel).bind fun z => (parseU16 a).bind fun x => (parseS16 b).map fun y => .thdEnc z x y
  | "THDDEC", [sel, a] => (parseAlertSel sel).bind fun z => (parseU16 a).map fun x => .thdDec z x
  | "THDRCMD", [sel] => (parseAlertSel sel).map .thdRCmd
  | "RDSTATUS", [] => some (.fixCmd 0)
  | "CLRSTATUS", [] => some (.fixCmd 1)
  | "RDSERIAL", [] => some (.fixCmd 2)
  | "SETLPM", [] => some (.setPm 0)
  | "SETMPM", [] => some (.setPm 1)
  | "SETHPM", [] => some (.setPm 2)
  | _, _ => none

/-- The request a line of text assembles to (R59). -/
def assemble (line : List Char) : Option Request := (parseLine line).map encode

/-- The hexadecimal digit of a number below 16. -/
def hexChar (d : Nat) : Char := if d < 10 then Char.ofNat (48 + d) else Char.ofNat (55 + d)

/-- The `k` low hexadecimal digits of a number, the highest first. -/
def hexChars : Nat → Nat → List Char
  | 0, _ => []
  | k + 1, n => hexChar ((n >>> (4 * k)) % 16) :: hexChars k n

/-- A request as the spec lists it, `CTRL A B` in hexadecimal (R59). -/
def listing (r : Request) : List Char :=
  hexChars 2 r.ctrl.toNat ++ ' ' :: hexChars 4 r.a.toNat ++ ' ' :: hexChars 4 r.b.toNat

end Sys2Proof.Machine
end

