-- ==== Sys2Proof/Safety.lean ====
section
/-! DEFINITION. The terms claims about the block use: the observation of a run (spec/70_reset_and_hazards.md R159), which
port samples the block tells apart (spec/30_encoding.md R51, R53, R55), and the invariant of its registers. The readings of a control
word here are numeric, apart from the decoder's. -/

namespace Sys2Proof.Machine

/-- The observation of the next `n` edges: the port outputs after each (R159). -/
def observe : Nat → State → List PortOutput
  | 0, _ => []
  | n + 1, s =>
    match step s with
    | .next t => t.outputs :: observe n t
    | .fault _ => []
    | .refused _ => []

/-- `CTRL[3:0]` as a number. -/
def rawOp (c : CtrlWord) : Nat := c.toNat % 16

/-- `CTRL[6:4]` as a number. -/
def rawSel (c : CtrlWord) : Nat := c.toNat / 16 % 8

/-- A reserved control word (R55): bit 7 is set, or `OP` is 0x0 or one of 0x9..0xF. -/
abbrev RawReserved (c : CtrlWord) : Prop := 128 ≤ c.toNat ∨ rawOp c = 0 ∨ 9 ≤ rawOp c

/-- A request with some cause of `INVALID_PARAMS` (spec/60_exceptions.md R133). -/
abbrev RawInvalid (c : CtrlWord) : Prop :=
  RawReserved c ∨ (rawOp c = 4 ∧ 3 ≤ rawSel c) ∨ ((rawOp c = 6 ∨ rawOp c = 7 ∨ rawOp c = 8) ∧ 4 ≤ rawSel c)

/-- Two requests that agree in all that R51 says their operation reads: both are reserved, or both name one operation and
agree in `SEL` for FIXCMD, THDENC, THDDEC and THDRCMD, in `A` for SETPM, ENLPM, CONV, THDENC and THDDEC, and in `B` for CONV and
THDENC. -/
abbrev SameRequest (r q : Request) : Prop :=
  (RawReserved r.ctrl ∧ RawReserved q.ctrl) ∨
    (¬ RawReserved r.ctrl ∧ ¬ RawReserved q.ctrl ∧ rawOp r.ctrl = rawOp q.ctrl ∧
      (rawOp r.ctrl ∈ [4, 6, 7, 8] → rawSel r.ctrl = rawSel q.ctrl) ∧
      (rawOp r.ctrl ∈ [2, 3, 5, 6, 7] → r.a = q.a) ∧ (rawOp r.ctrl ∈ [5, 6] → r.b = q.b))

/-- Two port samples that differ at most in what the block ignores: the request under a reset (R150), the words of an idle cycle
(R153), and the fields a request's operation does not read (R51, R53). -/
abbrev SameSample (p q : PortInput) : Prop :=
  p.rst = q.rst ∧ (p.rst = false → p.reqValid = q.reqValid ∧ (p.reqValid = true → SameRequest p.request q.request))

/-- A sample in which no reset is applied and no SETPM or ENLPM is accepted. -/
abbrev LeavesMode (p : PortInput) : Prop :=
  p.rst = false ∧ (p.reqValid = true → ∀ a, decode p.request ≠ .ok (.setPm a) ∧ decode p.request ≠ .ok (.enLpm a))

/-- A sample in which operation `i` is accepted. -/
abbrev Accepts (p : PortInput) (i : Instr) : Prop := p.rst = false ∧ p.reqValid = true ∧ decode p.request = .ok i

/-- A sample with neither a reset nor a request. -/
abbrev IsIdle (p : PortInput) : Prop := p.rst = false ∧ p.reqValid = false

/-- The operations that produce a command word when they succeed: MEASCMD, FIXCMD, THDENC, THDRCMD
(spec/10_state.md R23). -/
def producesCommand : Instr → Bool
  | .measCmd => true
  | .setPm _ => false
  | .enLpm _ => false
  | .fixCmd _ => true
  | .conv _ _ => false
  | .thdEnc _ _ _ => true
  | .thdDec _ _ => false
  | .thdRCmd _ => true

/-- The requests that draw no field (spec/42_threshold.md R102): all but a THDENC that has a defined selector, the policy UNSPECIFIED and
an input out of range. -/
def drawsNothing (p : ThdRangePolicy) : Instr → Bool
  | .measCmd => true
  | .setPm _ => true
  | .enLpm _ => true
  | .fixCmd _ => true
  | .conv _ _ => true
  | .thdEnc sel a b =>
    decide (4 ≤ sel.toNat ∨ p = .saturate ∨ (a.toNat ≤ 1000 ∧ -450 ≤ b.toInt ∧ b.toInt ≤ 1300))
  | .thdDec _ _ => true
  | .thdRCmd _ => true

/-- Every command word the block can select under its parameters: the measurement codes of its own bus-timing variant, the
fixed commands and the alert commands (spec/40_command_select.md R70, R71, R73). -/
def selectable (c : Config) : List Word :=
  (if c.clockStretch then c.cmdTable.measCs else c.cmdTable.measNocs) ++ c.cmdTable.fixed ++ c.cmdTable.alert

/-- `STATUS` holds `OK` or `INVALID_PARAMS`, and `CMD_VALID = 1` goes with `OK` (R23, R24, R131). -/
abbrev StatusLegal (s : State) : Prop :=
  (s.status = 0x0000#16 ∨ s.status = 0xFFFC#16) ∧ (s.cmdValid = true → s.status = 0x0000#16)

/-- `CMD` holds its reset value or a selectable command word, and a selectable one where `CMD_VALID = 1`. -/
abbrev CommandLegal (s : State) : Prop :=
  (s.cmd = 0x0000#16 ∨ s.cmd ∈ selectable s.config) ∧ (s.cmdValid = true → s.cmd ∈ selectable s.config)

/-- `R0` and `R1`, read as two's complement, lie in the union of the ranges of the results they hold (R94, R105, R106, R107). -/
abbrev ResultsInRange (s : State) : Prop :=
  (-45000 ≤ s.r0.toInt ∧ s.r0.toInt ≤ 129997) ∧ (-450 ≤ s.r1.toInt ∧ s.r1.toInt ≤ 99998)

/-- The invariant of the block: legal status outputs, a legal command word, results in range, and a command table that
meets R79. -/
abbrev Inv (s : State) : Prop :=
  StatusLegal s ∧ CommandLegal s ∧ ResultsInRange s ∧ s.config.cmdTable.Valid

/-- Decode then encode (spec/42_threshold.md R111 (d)): the limit word of the thresholds that `w` decodes to. -/
def reencode (p : ThdRangePolicy) (n : Nat) (w : Word) : Word := limitWord p n (thdDecH w) (thdDecT w)

/-- R111 (a): over the humidities in range the round trip comes back 0 to 8 tenths low; -8 occurs at 31 and 0 at 0. -/
abbrev HumidityRoundTripLaw (p : ThdRangePolicy) (n : Nat) : Prop :=
  ∀ (h : Nat) (t : Int), h ≤ 1000 → -450 ≤ t → t ≤ 1300 →
    (h : Int) - 8 ≤ thdDecH (limitWord p n h t) ∧ thdDecH (limitWord p n h t) ≤ h ∧
    (h = 31 → thdDecH (limitWord p n h t) = 23) ∧ (h = 0 → thdDecH (limitWord p n h t) = 0)

/-- R111 (b): over the temperatures in range the round trip comes back 0 to 4 tenths low; -4 occurs at -440 and 0 at -450. -/
abbrev TemperatureRoundTripLaw (p : ThdRangePolicy) (n : Nat) : Prop :=
  ∀ (h : Nat) (t : Int), h ≤ 1000 → -450 ≤ t → t ≤ 1300 →
    t - 4 ≤ thdDecT (limitWord p n h t) ∧ thdDecT (limitWord p n h t) ≤ t ∧
    (t = -440 → thdDecT (limitWord p n h t) = -444) ∧ (t = -450 → thdDecT (limitWord p n h t) = -450)

/-- R111 (c): in range, `Limit` does not fall in `h` for fixed `t`, nor in `t` for fixed `h`. -/
abbrev LimitMonotoneLaw (p : ThdRangePolicy) (n : Nat) : Prop :=
  ∀ (h h' : Nat) (t t' : Int), h ≤ h' → h' ≤ 1000 → -450 ≤ t → t ≤ t' → t' ≤ 1300 →
    (limitWord p n h t).toNat ≤ (limitWord p n h' t).toNat ∧ (limitWord p n h t).toNat ≤ (limitWord p n h t').toNat

/-- R111 (d): re-encoding gives the temperature field minus one for 511 of the 512 fields, beside any humidity field, and another
humidity field for 59 of the 128, beside any temperature field. -/
abbrev ReencodingLaw (p : ThdRangePolicy) (n : Nat) : Prop :=
  (∀ hb, hb < 128 → ((List.range 512).countP fun tb =>
    decide ((reencode p n (BitVec.ofNat 16 (512 * hb + tb))).toNat % 512 + 1 = tb)) = 511) ∧
  (∀ tb, tb < 512 → ((List.range 128).countP fun hb =>
    decide ((reencode p n (BitVec.ofNat 16 (512 * hb + tb))).toNat / 512 ≠ hb)) = 59)

/-- The laws of R111, (a) to (d). -/
abbrev RoundTripLaws (p : ThdRangePolicy) (n : Nat) : Prop :=
  HumidityRoundTripLaw p n ∧ TemperatureRoundTripLaw p n ∧ LimitMonotoneLaw p n ∧ ReencodingLaw p n

/-- `h_eff` of R102 under SATURATE in 32-bit arithmetic: an unsigned comparison and a choice. -/
def clampH32 (a : Word) : DWord := if 1000#32 < a.setWidth 32 then 1000#32 else a.setWidth 32

/-- `t_eff` of R102 under SATURATE in 32-bit arithmetic: two signed comparisons. -/
def clampT32 (b : Word) : DWord :=
  if (b.signExtend 32).slt (-450#32) then -450#32
  else if (1300#32).slt (b.signExtend 32) then 1300#32 else b.signExtend 32

/-- The limit word of conditioned inputs by the mask form of R105 over R103 and R104:
`(ThdEncH(h) & 0xFE00) | ((ThdEncT(t) >> 7) & 0x01FF)`. -/
def limitFormula (h : Nat) (t : Int) : Nat :=
  ((2 * (h * 65535) + 1000) / (2 * 1000) &&& 0xFE00) ||| ((((t + 450) * 65535 / 1750).toNat >>> 7) &&& 0x01FF)

end Sys2Proof.Machine
end

