-- ==== Sys2Proof/Certificates/Slice0/Obligations.lean ====
section
/-! DEFINITION. The statements for the provers. -/

open Sys2Proof Sys2Proof.Machine

/-! ### Encoding -/

/-- Every operation, with every operand at every value, is read back from the request the assembler writes for it
(30_encoding.md R50, R51, R52, R59). -/
def Obligations.DecodeOfEncodeIsIdentity : Prop :=
  ∀ i : Instr, decode (encode i) = .ok i

/-- A request decodes to an operation exactly where its control word is not reserved (bit 7 clear, OP as the operation's) and
it agrees with the operation in the fields R51 says the operation reads; no other bit of it matters. -/
def Obligations.DecodeReadsExactlyItsFields : Prop :=
  ∀ (r : Request) (i : Instr), decode r = .ok i ↔
    r.ctrl.toNat < 128 ∧
      match i with
      | .measCmd => rawOp r.ctrl = 1
      | .setPm a => rawOp r.ctrl = 2 ∧ r.a = a
      | .enLpm a => rawOp r.ctrl = 3 ∧ r.a = a
      | .fixCmd sel => rawOp r.ctrl = 4 ∧ rawSel r.ctrl = sel.toNat
      | .conv a b => rawOp r.ctrl = 5 ∧ r.a = a ∧ r.b = b
      | .thdEnc sel a b => rawOp r.ctrl = 6 ∧ rawSel r.ctrl = sel.toNat ∧ r.a = a ∧ r.b = b
      | .thdDec sel a => rawOp r.ctrl = 7 ∧ rawSel r.ctrl = sel.toNat ∧ r.a = a
      | .thdRCmd sel => rawOp r.ctrl = 8 ∧ rawSel r.ctrl = sel.toNat

/-- Of the 256 control words, 64 decode to an operation and 192 are reserved, whatever the operand ports hold
(30_encoding.md section 4: the spec marks this count as derived). -/
def Obligations.SixtyFourControlWordsDecode : Prop :=
  ∀ a b : Word,
    ((List.range 256).countP fun c => match decode ⟨BitVec.ofNat 8 c, a, b⟩ with | .ok _ => true | .error _ => false) = 64 ∧
    ((List.range 256).countP fun c => match decode ⟨BitVec.ofNat 8 c, a, b⟩ with | .ok _ => false | .error _ => true) = 192

/-- Words written out from the encodings of R74 to R77, R95 and R108 to R110 decode to what they stand for (a sanity statement);
a table word carries CTRL in bits 7..0, A in bits 23..8 and B in bits 39..24 (the model's choice, log 3). -/
def Obligations.WrittenOutWordsDecode : Prop :=
  decodeTableWord 8 0b01110001 = some .measCmd ∧
  decodeTableWord 24 0b1111111111111111_00000010 = some (.setPm 0xFFFF) ∧
  decodeTableWord 24 0b0000000000000111_00000011 = some (.enLpm 7) ∧
  decodeTableWord 8 0b01010100 = some (.fixCmd 5) ∧
  decodeTableWord 40 0b1000000000000000_0110011001100110_00000101 = some (.conv 0x6666 0x8000) ∧
  decodeTableWord 40 0b1000000000000000_0000001111101000_00010110 = some (.thdEnc 1 1000 0x8000) ∧
  decodeTableWord 24 0b1100110100110011_00010111 = some (.thdDec 1 0xCD33) ∧
  decodeTableWord 8 0b00111000 = some (.thdRCmd 3) ∧
  decodeTableWord 8 0b10000001 = none ∧ decodeTableWord 8 0b00000000 = none ∧ decodeTableWord 8 0b00001001 = none

/-- The request the assembler writes is `CTRL = {0, SEL, OP}`, with SEL 0 where the operation takes no selector and A and B 0 where it
ignores them (30_encoding.md section 6). -/
def Obligations.AssembledRequestIsCanonical : Prop :=
  ∀ (sel : Sel) (a b : Word),
    encode .measCmd = ⟨0x01, 0, 0⟩ ∧ encode (.setPm a) = ⟨0x02, a, 0⟩ ∧ encode (.enLpm a) = ⟨0x03, a, 0⟩ ∧
    encode (.fixCmd sel) = ⟨BitVec.ofNat 8 (16 * sel.toNat + 0x4), 0, 0⟩ ∧ encode (.conv a b) = ⟨0x05, a, b⟩ ∧
    encode (.thdEnc sel a b) = ⟨BitVec.ofNat 8 (16 * sel.toNat + 0x6), a, b⟩ ∧
    encode (.thdDec sel a) = ⟨BitVec.ofNat 8 (16 * sel.toNat + 0x7), a, 0⟩ ∧
    encode (.thdRCmd sel) = ⟨BitVec.ofNat 8 (16 * sel.toNat + 0x8), 0, 0⟩

/-- The pseudo-instructions of R60 assemble to the requests its table gives, and to those of what they expand to. -/
def Obligations.PseudoInstructionsExpand : Prop :=
  (assemble "RDSTATUS".toList = assemble "FIXCMD RDSTAT".toList ∧ assemble "RDSTATUS".toList = some ⟨0x04, 0, 0⟩) ∧
  (assemble "CLRSTATUS".toList = assemble "FIXCMD CLRSTAT".toList ∧ assemble "CLRSTATUS".toList = some ⟨0x14, 0, 0⟩) ∧
  (assemble "RDSERIAL".toList = assemble "FIXCMD RDSERIAL".toList ∧ assemble "RDSERIAL".toList = some ⟨0x24, 0, 0⟩) ∧
  (assemble "SETLPM".toList = assemble "SETPM LPM".toList ∧ assemble "SETLPM".toList = some ⟨0x02, 0x0000, 0⟩) ∧
  (assemble "SETMPM".toList = assemble "SETPM MPM".toList ∧ assemble "SETMPM".toList = some ⟨0x02, 0x0001, 0⟩) ∧
  (assemble "SETHPM".toList = assemble "SETPM HPM".toList ∧ assemble "SETHPM".toList = some ⟨0x02, 0x0002, 0⟩)

/-! ### Reset and the step -/

/-- The registers after reset have the values of R29. -/
def Obligations.ResetRegisterValues : Prop :=
  State.reset.activeMode = .hpm ∧ State.reset.r0 = 0x00000000#32 ∧ State.reset.r1 = 0x00000000#32 ∧
  State.reset.cmd = 0x0000#16 ∧ State.reset.cmdValid = false ∧ State.reset.status = 0x0000#16 ∧
  State.reset.rspValid = false

/-- A reset edge gives every register its reset value from any state, whatever the request ports hold (70_reset_and_hazards.md
section 1, 10_state.md section 5). That the last three fields stay is the model's choice: the parameters (log 4), the host's later edges
(log 1), the counter of draws (log 7). -/
def Obligations.ResetEdgeGivesTheResetState : Prop :=
  ∀ (s : State) (reqValid : Bool) (ctrl : CtrlWord) (a b : Word) (rest : List PortInput),
    s.inputs = ⟨true, reqValid, ctrl, a, b⟩ :: rest →
    step s = .next { activeMode := .hpm, r0 := 0, r1 := 0, cmd := 0, cmdValid := false, status := 0, rspValid := false,
                     config := s.config, inputs := rest, draws := s.draws }

/-- Where the sampled request decodes to an operation, the step is that operation's `exec`, on the state with the sample taken
off the host's list (R153). -/
def Obligations.StepRunsTheDecodedOperation : Prop :=
  ∀ (s : State) (p : PortInput) (rest : List PortInput) (i : Instr),
    s.inputs = p :: rest → p.rst = false → p.reqValid = true → decode ⟨p.ctrl, p.a, p.b⟩ = .ok i →
    step s = exec i { s with inputs := rest }

/-- A table word that decodes is run by the very next step, whatever the state (logs 2, 3: the model's choices). -/
def Obligations.StepRunsTheFetchWord : Prop :=
  ∀ (s : State) (nbits w : Nat) (i : Instr),
    decodeTableWord nbits w = some i →
    step (s.withFetchWord nbits w) = exec i { s with inputs := s.inputs.drop 1 }

/-- A request with a reserved control word (R55: bit 7 set, or OP 0x0 or 0x9..0xF) writes INVALID_PARAMS, CMD_VALID 0 and
RSP_VALID 1, and nothing else. -/
def Obligations.ReservedControlWordOnlyReports : Prop :=
  ∀ (s : State) (p : PortInput) (rest : List PortInput),
    s.inputs = p :: rest → p.rst = false → p.reqValid = true →
    (p.ctrl.getLsbD 7 = true ∨ p.ctrl.extractLsb' 0 4 = 0x0 ∨ 0x9 ≤ (p.ctrl.extractLsb' 0 4).toNat) →
    step s = .next { s with status := 0xFFFC, cmdValid := false, rspValid := true, inputs := rest }

/-- An edge with neither a reset nor a request holds every register but RSP_VALID (R153). -/
def Obligations.IdleEdgeHoldsTheRegisters : Prop :=
  ∀ (s : State) (ctrl : CtrlWord) (a b : Word) (rest : List PortInput),
    s.inputs = ⟨false, false, ctrl, a, b⟩ :: rest →
    step s = .next { s with rspValid := false, inputs := rest }

/-- Past the end of the host's list the block idles. The model's choice, log 1; no rule of the spec says what the host presents. -/
def Obligations.EndedListIsAnIdleEdge : Prop :=
  ∀ s : State, s.inputs = [] → step s = .next { s with rspValid := false }

/-- From every state, every number of steps completes: the block never halts, hangs, faults or refuses
(70_reset_and_hazards.md section 5). -/
def Obligations.EveryRunCompletes : Prop :=
  ∀ (n : Nat) (s : State), ∃ t : State, Host.Core.run Sys2Proof.core n s = .next t

/-- RSP_VALID is 1 just after an edge that accepts a request, and 0 after every other edge that is not a reset (R26). -/
def Obligations.RspValidMarksAcceptance : Prop :=
  ∀ (s : State) (p : PortInput) (rest : List PortInput),
    s.inputs = p :: rest → p.rst = false → ∃ t, step s = .next t ∧ t.rspValid = p.reqValid

/-- The outputs of an accepted request show from its edge on with RSP_VALID = 1, and over any later idle edges all of them are
held but RSP_VALID, which returns to 0 (R154). -/
def Obligations.ResultsHoldOverIdleEdges : Prop :=
  ∀ (s : State) (p q : PortInput) (idle rest : List PortInput),
    s.inputs = p :: q :: (idle ++ rest) → p.rst = false → p.reqValid = true → IsIdle q → (∀ x ∈ idle, IsIdle x) →
    ∃ t, step s = .next t ∧ t.rspValid = true ∧
      Host.Core.run Sys2Proof.core (idle.length + 1) t = .next { t with rspValid := false, inputs := rest }

/-- No edge changes the parameters (10_state.md section 4, 20_memory.md section 1). -/
def Obligations.ParametersNeverChange : Prop :=
  ∀ (n : Nat) (s t : State), Host.Core.run Sys2Proof.core n s = .next t → t.config = s.config

/-! ### Command selector -/

/-- MEASCMD leaves the measurement command of R73 for CLOCK_STRETCH and ACTIVE_MODE in CMD and changes nothing else but the
status outputs (R73, R74). -/
def Obligations.MeasCmdSelectsTheActiveCommand : Prop :=
  ∀ s : State, exec .measCmd s = .next { s with
    cmd :=
      if s.config.clockStretch then
        (if s.activeMode = .lpm then s.config.cmdTable.measLpmCs
         else if s.activeMode = .mpm then s.config.cmdTable.measMpmCs else s.config.cmdTable.measHpmCs)
      else
        (if s.activeMode = .lpm then s.config.cmdTable.measLpmNocs
         else if s.activeMode = .mpm then s.config.cmdTable.measMpmNocs else s.config.cmdTable.measHpmNocs)
    cmdValid := true, status := 0x0000, rspValid := true }

/-- SETPM selects LPM for 0, MPM for 1 and HPM for every other operand, and changes nothing else but the status outputs
(R75). -/
def Obligations.SetPmSelectsTheMode : Prop :=
  ∀ (a : Word) (s : State), exec (.setPm a) s = .next { s with
    activeMode := if a = 0 then .lpm else if a = 1 then .mpm else .hpm
    cmdValid := false, status := 0x0000, rspValid := true }

/-- ENLPM selects LPM for a non-zero operand and HPM for zero, and changes nothing else but the status outputs (R76). -/
def Obligations.EnLpmSelectsLowOrHighPower : Prop :=
  ∀ (a : Word) (s : State), exec (.enLpm a) s = .next { s with
    activeMode := if a = 0 then .hpm else .lpm
    cmdValid := false, status := 0x0000, rspValid := true }

/-- FIXCMD selects READ_STATUS, CLEAR_STATUS or READ_SERIAL for the selectors 0, 1 and 2, and fails for 3..7 with CMD
unchanged (R77). -/
def Obligations.FixCmdSelectsTheFixedCommand : Prop :=
  ∀ s : State,
    exec (.fixCmd 0) s = .next { s with
      cmd := s.config.cmdTable.readStatus, cmdValid := true, status := 0x0000, rspValid := true } ∧
    exec (.fixCmd 1) s = .next { s with
      cmd := s.config.cmdTable.clearStatus, cmdValid := true, status := 0x0000, rspValid := true } ∧
    exec (.fixCmd 2) s = .next { s with
      cmd := s.config.cmdTable.readSerial, cmdValid := true, status := 0x0000, rspValid := true } ∧
    ∀ sel : Sel, 3 ≤ sel.toNat →
      exec (.fixCmd sel) s = .next { s with cmdValid := false, status := 0xFFFC, rspValid := true }

/-- After an accepted SETPM or ENLPM of any operand, then any edges with no reset and no SETPM or ENLPM accepted, MEASCMD gives the
measurement command of the bus-timing variant and the mode that operand selects (R73, R75, R76). The laws of 40_command_select.md
section 3, which the spec marks as derived, are its cases SETPM 0 and ENLPM 0. A reset edge between is left out because it selects HPM
by itself. -/
def Obligations.SelectedModeReachesTheNextMeasCmd : Prop :=
  ∀ (s : State) (p q : PortInput) (between rest : List PortInput) (a : Word),
    s.inputs = p :: (between ++ q :: rest) → (∀ x ∈ between, LeavesMode x) → Accepts q .measCmd →
    (Accepts p (.setPm a) →
      ∃ t : State, Host.Core.run Sys2Proof.core (between.length + 2) s = .next t ∧ t.cmdValid = true ∧
        t.cmd = measCommand s.config.cmdTable s.config.clockStretch
          (if a = 0 then .lpm else if a = 1 then .mpm else .hpm)) ∧
    (Accepts p (.enLpm a) →
      ∃ t : State, Host.Core.run Sys2Proof.core (between.length + 2) s = .next t ∧ t.cmdValid = true ∧
        t.cmd = measCommand s.config.cmdTable s.config.clockStretch (if a = 0 then .hpm else .lpm))

/-- The default table meets the three constraints of R79 and its seventeen words are pairwise distinct. The words are the
spec's general knowledge (R72; log 6: PRESUMED). -/
def Obligations.DefaultTableIsValid : Prop :=
  CmdTable.default.Valid ∧
  (CmdTable.default.measNocs ++ CmdTable.default.measCs ++ CmdTable.default.fixed ++ CmdTable.default.alert).Nodup ∧
  (CmdTable.default.measNocs ++ CmdTable.default.measCs ++ CmdTable.default.fixed ++ CmdTable.default.alert).length = 17

/-- Under a table that meets R79, the word MEASCMD leaves tells the bus-timing variant and the mode. -/
def Obligations.MeasCommandTellsVariantAndMode : Prop :=
  ∀ (s s' t t' : State), s.config.cmdTable.Valid → s'.config.cmdTable = s.config.cmdTable →
    exec .measCmd s = .next t → exec .measCmd s' = .next t' → t.cmd = t'.cmd →
    s.config.clockStretch = s'.config.clockStretch ∧ s.activeMode = s'.activeMode

/-- Under a table that meets R79, the four selectors give distinct read commands and distinct write commands, and no read
command is a write command. -/
def Obligations.AlertCommandsAreDistinct : Prop :=
  ∀ (s t : State) (sel sel' : Sel) (i i' : Instr) (a b a' b' : Word) (u : State),
    s.config.cmdTable.Valid → sel.toNat ≤ 3 → sel'.toNat ≤ 3 →
    (i = .thdRCmd sel ∨ i = .thdEnc sel a b) → (i' = .thdRCmd sel' ∨ i' = .thdEnc sel' a' b') →
    exec i s = .next t → exec i' s = .next u → t.cmd = u.cmd →
    sel = sel' ∧ (i = .thdRCmd sel ↔ i' = .thdRCmd sel')

/-! ### Scaler -/

/-- CONV leaves the temperature of R91 in R0 and the humidity of R92 in R1, two's complement, and changes nothing else but the
status outputs (R91, R92, R95). -/
def Obligations.ConvWritesTemperatureAndHumidity : Prop :=
  ∀ (a b : Word) (s : State), exec (.conv a b) s = .next { s with
    r0 := BitVec.ofInt 32 (((21875 * a.toNat) >>> 13 : Nat) - 45000 : Int)
    r1 := BitVec.ofNat 32 ((12500 * b.toNat) >>> 13)
    cmdValid := false, status := 0x0000, rspValid := true }

/-- R0 and R1 after CONV, read as two's complement, are the exact values: nothing is lost at the register write. Their ranges are
[-45000, 129997] and [0, 99998]; R0 is negative exactly for `T_raw` up to 0x41D4, and never 0, 1 or -2; neither falls where the raw word
rises. -/
def Obligations.ConvResultsAreExactMonotoneAndBounded : Prop :=
  ∀ (a b a' b' : Word) (s : State), ∃ t t', exec (.conv a b) s = .next t ∧ exec (.conv a' b') s = .next t' ∧
    t.r0.toInt = (21875 * a.toNat / 8192 : Nat) - (45000 : Int) ∧ t.r1.toInt = (12500 * b.toNat / 8192 : Nat) ∧
    -45000 ≤ t.r0.toInt ∧ t.r0.toInt ≤ 129997 ∧ 0 ≤ t.r1.toInt ∧ t.r1.toInt ≤ 99998 ∧
    (t.r0.toInt < 0 ↔ a.toNat ≤ 0x41D4) ∧ t.r0.toInt ≠ 0 ∧ t.r0.toInt ≠ 1 ∧ t.r0.toInt ≠ -2 ∧
    (a.toNat ≤ a'.toNat → t.r0.toInt ≤ t'.r0.toInt) ∧ (b.toNat ≤ b'.toNat → t.r1.toInt ≤ t'.r1.toInt)

/-- The shift form and the floor form of the two conversions are equal for every raw word (41_scaler.md section 1: the spec
marks it as derived). -/
def Obligations.ShiftFormIsFloorForm : Prop :=
  ∀ x : Nat, x ≤ 65535 →
    decodeT x = (175000 * x / 65536 : Nat) - (45000 : Int) ∧ decodeRH x = 100000 * x / 65536

/-- A realisation in wrapping 32-bit arithmetic gives CONV's results: no intermediate value wraps (41_scaler.md section 1). -/
def Obligations.ConvAgreesWith32BitArithmetic : Prop :=
  ∀ (a b : Word) (s : State), ∃ t, exec (.conv a b) s = .next t ∧
    t.r0 = ((21875#32 * a.setWidth 32) >>> 13) - 45000#32 ∧ t.r1 = (12500#32 * b.setWidth 32) >>> 13

/-! ### Threshold compressor/decompressor -/

/-- An alert selector in 4..7 fails THDENC, THDDEC and THDRCMD with INVALID_PARAMS and no other effect: no result register, no
command. With a selector in 0..3 all three proceed: they end with STATUS OK (R101). -/
def Obligations.AlertSelectorDecidesSuccess : Prop :=
  ∀ (sel : Sel) (a b : Word) (s : State),
    (4 ≤ sel.toNat →
      exec (.thdEnc sel a b) s = .next { s with cmdValid := false, status := 0xFFFC, rspValid := true } ∧
      exec (.thdDec sel a) s = .next { s with cmdValid := false, status := 0xFFFC, rspValid := true } ∧
      exec (.thdRCmd sel) s = .next { s with cmdValid := false, status := 0xFFFC, rspValid := true }) ∧
    (sel.toNat ≤ 3 →
      ∃ t u v, exec (.thdEnc sel a b) s = .next t ∧ exec (.thdDec sel a) s = .next u ∧ exec (.thdRCmd sel) s = .next v ∧
        t.status = 0x0000 ∧ u.status = 0x0000 ∧ v.status = 0x0000)

/-- Under SATURATE, THDENC with a selector in 0..3 leaves the limit word of the clamped inputs in R0, by the mask form of R105
over R103 and R104, and the selector's write command of R78 in CMD. -/
def Obligations.ThdEncSaturatesAndPacks : Prop :=
  ∀ (sel : Sel) (a b : Word) (s : State), sel.toNat ≤ 3 → s.config.thdRangePolicy = .saturate →
    exec (.thdEnc sel a b) s = .next { s with
      r0 := BitVec.ofNat 32 (limitFormula (min a.toNat 1000) (min (max b.toInt (-450)) 1300))
      cmd := [s.config.cmdTable.alertWrHs, s.config.cmdTable.alertWrHc, s.config.cmdTable.alertWrLc,
              s.config.cmdTable.alertWrLs].getD sel.toNat 0
      cmdValid := true, status := 0x0000, rspValid := true }

/-- Under either policy, THDENC with a defined selector and inputs in 0..1000 and -450..1300 leaves the limit word of R105 in R0
and draws nothing. -/
def Obligations.ThdEncInRangeUnderEitherPolicy : Prop :=
  ∀ (sel : Sel) (a b : Word) (s : State), sel.toNat ≤ 3 → a.toNat ≤ 1000 → -450 ≤ b.toInt → b.toInt ≤ 1300 →
    exec (.thdEnc sel a b) s = .next { s with
      r0 := BitVec.ofNat 32 (limitFormula a.toNat b.toInt)
      cmd := [s.config.cmdTable.alertWrHs, s.config.cmdTable.alertWrHc, s.config.cmdTable.alertWrLc,
              s.config.cmdTable.alertWrLs].getD sel.toNat 0
      cmdValid := true, status := 0x0000, rspValid := true }

/-- Under UNSPECIFIED, THDENC with a defined selector completes for all inputs: each field of an input in range is the computed
one, each field of an input out of range is this request's draw (the free values of log 7, at the counter's value), and a request that
draws moves the counter on, so that the next draws afresh (R102). -/
def Obligations.ThdEncDrawsTheFieldOutOfRange : Prop :=
  ∀ (sel : Sel) (a b : Word) (s : State), sel.toNat ≤ 3 → s.config.thdRangePolicy = .unspecified →
    ∃ (hb : BitVec 7) (tb : BitVec 9) (n : Nat),
      exec (.thdEnc sel a b) s = .next { s with
        r0 := (hb ++ tb).setWidth 32
        cmd := [s.config.cmdTable.alertWrHs, s.config.cmdTable.alertWrHc, s.config.cmdTable.alertWrLc,
                s.config.cmdTable.alertWrLs].getD sel.toNat 0
        cmdValid := true, status := 0x0000, rspValid := true, draws := n } ∧
      (a.toNat ≤ 1000 → hb.toNat = (2 * (a.toNat * 65535) + 1000) / (2 * 1000) / 512) ∧
      (1000 < a.toNat → hb = Config.freeHB s.draws) ∧
      (-450 ≤ b.toInt ∧ b.toInt ≤ 1300 → (tb.toNat : Int) = (b.toInt + 450) * 65535 / 1750 / 128) ∧
      (b.toInt < -450 ∨ 1300 < b.toInt → tb = Config.freeTB s.draws) ∧
      (a.toNat ≤ 1000 ∧ -450 ≤ b.toInt ∧ b.toInt ≤ 1300 → n = s.draws) ∧
      (1000 < a.toNat ∨ b.toInt < -450 ∨ 1300 < b.toInt → n = s.draws + 1)

/-- THDDEC with a selector in 0..3 leaves the humidity of R106 in R0 and the temperature of R107 in R1, two's complement, and
changes nothing else but the status outputs; with one in 4..7 it fails and writes neither (R109). -/
def Obligations.ThdDecUnpacksTheLimitWord : Prop :=
  ∀ (sel : Sel) (a : Word) (s : State),
    (sel.toNat ≤ 3 →
      exec (.thdDec sel a) s = .next { s with
        r0 := BitVec.ofNat 32 ((1000 * (a &&& 0xFE00#16).toNat + 32767) / 65535)
        r1 := BitVec.ofInt 32 ((((a &&& 0x01FF#16).toNat <<< 7) * 1750 / 65535 : Nat) - 450 : Int)
        cmdValid := false, status := 0x0000, rspValid := true }) ∧
    (4 ≤ sel.toNat →
      exec (.thdDec sel a) s = .next { s with cmdValid := false, status := 0xFFFC, rspValid := true })

/-- The humidity of R106 is both of the forms the rule gives, and no limit word makes a tie, so that every rounding to nearest gives it
(42_threshold.md section 1: the spec marks this as derived). -/
def Obligations.ThdDecHumidityFormsAgree : Prop :=
  ∀ w : Word,
    thdDecH w = (2 * (1000 * (w &&& 0xFE00#16).toNat) + 65535) / (2 * 65535) ∧
    thdDecH w = (1000 * (w &&& 0xFE00#16).toNat + 32767) / 65535 ∧
    2 * (1000 * (w &&& 0xFE00#16).toNat % 65535) ≠ 65535

/-- R0 and R1 after THDDEC, read as two's complement, lie in 0..992 and -450..1296, and depend on the two fields of the limit
word apart: R0 on bits 15..9, R1 on bits 8..0. -/
def Obligations.ThdDecResultsAreBoundedByField : Prop :=
  ∀ (sel : Sel) (a a' : Word) (s : State), sel.toNat ≤ 3 →
    ∃ t t', exec (.thdDec sel a) s = .next t ∧ exec (.thdDec sel a') s = .next t' ∧
      0 ≤ t.r0.toInt ∧ t.r0.toInt ≤ 992 ∧ -450 ≤ t.r1.toInt ∧ t.r1.toInt ≤ 1296 ∧
      (a.toNat / 512 = a'.toNat / 512 → t.r0 = t'.r0) ∧ (a.toNat % 512 = a'.toNat % 512 → t.r1 = t'.r1)

/-- THDRCMD with a selector in 0..3 leaves the selector's read command of R78 in CMD and changes nothing else but the status
outputs; with one in 4..7 it fails (R110). -/
def Obligations.ThdRCmdSelectsTheReadCommand : Prop :=
  ∀ (sel : Sel) (s : State),
    (sel.toNat ≤ 3 →
      exec (.thdRCmd sel) s = .next { s with
        cmd := [s.config.cmdTable.alertRdHs, s.config.cmdTable.alertRdHc, s.config.cmdTable.alertRdLc,
                s.config.cmdTable.alertRdLs].getD sel.toNat 0
        cmdValid := true, status := 0x0000, rspValid := true }) ∧
    (4 ≤ sel.toNat →
      exec (.thdRCmd sel) s = .next { s with cmdValid := false, status := 0xFFFC, rspValid := true })

/-- A threshold in range that is encoded, and whose argument word (R0[15:0]) is decoded again, comes back at most 8 tenths of %RH and at most 4 tenths of a degree
low, and never high (42_threshold.md section 3: the spec marks it as derived). -/
def Obligations.ThresholdRoundTripStaysClose : Prop :=
  ∀ (sel sel' : Sel) (a b : Word) (s : State),
    sel.toNat ≤ 3 → sel'.toNat ≤ 3 → a.toNat ≤ 1000 → -450 ≤ b.toInt → b.toInt ≤ 1300 →
    ∃ t u, exec (.thdEnc sel a b) s = .next t ∧ exec (.thdDec sel' t.outputs.limitArgument) t = .next u ∧
      (a.toNat : Int) - 8 ≤ u.r0.toInt ∧ u.r0.toInt ≤ a.toNat ∧
      b.toInt - 4 ≤ u.r1.toInt ∧ u.r1.toInt ≤ b.toInt

/-- In range, the limit word does not fall where the humidity or the temperature rises (42_threshold.md section 3). -/
def Obligations.LimitWordIsMonotone : Prop :=
  ∀ (sel : Sel) (a b a' b' : Word) (s t u : State),
    sel.toNat ≤ 3 → a.toNat ≤ a'.toNat → a'.toNat ≤ 1000 → -450 ≤ b.toInt → b.toInt ≤ b'.toInt → b'.toInt ≤ 1300 →
    exec (.thdEnc sel a b) s = .next t → exec (.thdEnc sel a' b') s = .next u → t.r0.toNat ≤ u.r0.toNat

/-- The four round-trip laws of the threshold unit's own functions, with the inputs at which the extremes occur, hold under either policy
and at every value of the counter of draws (42_threshold.md section 3: the spec marks them as derived). -/
def Obligations.ThresholdRoundTripLaws : Prop :=
  ∀ (p : ThdRangePolicy) (n : Nat), RoundTripLaws p n

/-- Decode then encode is not the identity: for 511 of the 512 temperature fields it gives the field minus one, and for 59 of the
128 humidity fields another field (42_threshold.md section 3). -/
def Obligations.ReencodingMissesTheseFields : Prop :=
  ((List.range 512).countP fun f =>
    decide (thdEncT (thdDecT (BitVec.ofNat 16 f)) / 128 + 1 = f)) = 511 ∧
  ((List.range 128).countP fun f =>
    decide (thdEncH (thdDecH (BitVec.ofNat 16 (512 * f))) / 512 ≠ f)) = 59

/-- A realisation in wrapping 32-bit arithmetic, the clamps of SATURATE included, gives each field of the limit word that THDENC
computes (both for every input under SATURATE, the field of an input in range under UNSPECIFIED; the other field there is a draw) and both
decoded values of every limit word: no intermediate value wraps (42_threshold.md section 1). -/
def Obligations.ThresholdAgreesWith32BitArithmetic : Prop :=
  ∀ (sel : Sel) (a b w : Word) (s : State), sel.toNat ≤ 3 →
    (∃ t, exec (.thdEnc sel a b) s = .next t ∧ t.r0 >>> 16 = 0#32 ∧
      (s.config.thdRangePolicy = .saturate ∨ a.toNat ≤ 1000 →
        t.r0 &&& 0xFE00#32 = ((clampH32 a * 65535#32 + 500#32) / 1000#32) &&& 0xFE00#32) ∧
      (s.config.thdRangePolicy = .saturate ∨ (-450 ≤ b.toInt ∧ b.toInt ≤ 1300) →
        t.r0 &&& 0x01FF#32 = (((clampT32 b + 450#32) * 65535#32 / 1750#32) >>> 7) &&& 0x01FF#32)) ∧
    (∃ t, exec (.thdDec sel w) s = .next t ∧
      t.r0 = (1000#32 * (w.setWidth 32 &&& 0xFE00#32) + 32767#32) / 65535#32 ∧
      t.r1 = ((w.setWidth 32 &&& 0x01FF#32) <<< 7) * 1750#32 / 65535#32 - 450#32)

/-! ### The whole block -/

/-- The invariant of the registers holds after reset, at the parameters the model names (logs 5, 6). -/
def Obligations.InvariantHoldsAtReset : Prop :=
  Inv State.reset

/-- Every step keeps the invariant: STATUS is OK or INVALID_PARAMS and OK where CMD_VALID is 1, CMD is its reset value or a
selectable command word and the latter where CMD_VALID is 1, R0 and R1 lie in the ranges of the results they hold, and the command
table meets R79. -/
def Obligations.EveryStepKeepsTheInvariant : Prop :=
  ∀ s t : State, Inv s → step s = .next t → Inv t

/-- Only a reset and an accepted SETPM or ENLPM change ACTIVE_MODE (10_state.md section 2). -/
def Obligations.OnlyModeOperationsChangeTheMode : Prop :=
  ∀ (s t : State) (p : PortInput) (rest : List PortInput),
    s.inputs = p :: rest → step s = .next t → t.activeMode ≠ s.activeMode →
    p.rst = true ∨ ∃ a, Accepts p (.setPm a) ∨ Accepts p (.enLpm a)

/-- Only MEASCMD reads ACTIVE_MODE: every other operation gives the same outputs from states that differ in it alone
(10_state.md section 2). -/
def Obligations.OnlyMeasCmdReadsTheMode : Prop :=
  ∀ (i : Instr) (s : State) (m : Mode), i ≠ .measCmd →
    ∃ t t', exec i s = .next t ∧ exec i { s with activeMode := m } = .next t' ∧ t.outputs = t'.outputs ∧ t.draws = t'.draws

/-- R0 and R1 are written only by a successful CONV, THDENC or THDDEC, and R1 not by THDENC (10_state.md section 3). -/
def Obligations.OnlyConversionsWriteTheResults : Prop :=
  ∀ (s t : State) (p : PortInput) (rest : List PortInput),
    s.inputs = p :: rest → p.rst = false → step s = .next t →
    (t.r0 ≠ s.r0 → t.status = 0x0000 ∧ ∃ sel a b, Accepts p (.conv a b) ∨ Accepts p (.thdEnc sel a b) ∨ Accepts p (.thdDec sel a)) ∧
    (t.r1 ≠ s.r1 → t.status = 0x0000 ∧ ∃ sel a b, Accepts p (.conv a b) ∨ Accepts p (.thdDec sel a))

/-- CMD_VALID is 1 after an operation exactly where it is a command-producing one and succeeds, and CMD holds where CMD_VALID is
written 0 (10_state.md section 3). -/
def Obligations.CommandIsWrittenOnlyWithCmdValid : Prop :=
  ∀ (i : Instr) (s : State), ∃ t, exec i s = .next t ∧
    (t.cmdValid = true ↔ producesCommand i = true ∧ i.wellFormed = true) ∧ (t.cmdValid = false → t.cmd = s.cmd)

/-- An accepted request reports INVALID_PARAMS exactly for the causes of R133's table, read off its control word, and OK
otherwise. -/
def Obligations.InvalidParamsHasTheseCauses : Prop :=
  ∀ (s t : State) (p : PortInput) (rest : List PortInput),
    s.inputs = p :: rest → p.rst = false → p.reqValid = true → step s = .next t →
    (t.status = 0xFFFC ↔ RawInvalid p.ctrl) ∧ (t.status = 0x0000 ↔ ¬ RawInvalid p.ctrl)

/-- An accepted request with a cause of INVALID_PARAMS writes STATUS, CMD_VALID and RSP_VALID and nothing else (R131), and shows the
host no command to issue and no results to use. -/
def Obligations.FailedRequestChangesNothingElse : Prop :=
  ∀ (s : State) (p : PortInput) (rest : List PortInput),
    s.inputs = p :: rest → p.rst = false → p.reqValid = true → RawInvalid p.ctrl →
    ∃ t, step s = .next t ∧ t = { s with status := 0xFFFC, cmdValid := false, rspValid := true, inputs := rest } ∧
      t.outputs.issuable = none ∧ t.outputs.results = none

/-- The status codes as STATUS holds them (10_state.md section 3, 60_exceptions.md section 1). -/
def Obligations.StatusCodeWords : Prop :=
  StatusCode.ok.word = 0x0000#16 ∧ StatusCode.badData.word = 0xFFFF#16 ∧ StatusCode.crcFail.word = 0xFFFE#16 ∧
  StatusCode.unknownDevice.word = 0xFFFD#16 ∧ StatusCode.invalidParams.word = 0xFFFC#16

/-- An operation that draws nothing, under either policy, completes without moving the counter of draws (log 7), and repeated at once
changes nothing more (20_memory.md section 3). -/
def Obligations.RepeatedOperationIsIdempotent : Prop :=
  ∀ (i : Instr) (s : State), drawsNothing s.config.thdRangePolicy i = true →
    ∃ t, exec i s = .next t ∧ t.draws = s.draws ∧ exec i t = .next t

/-- What the block ignores cannot be seen: two hosts whose samples differ only in the request under a reset, the words of an
idle cycle, the fields a request's operation does not read, and which reserved control word a reserved request carries, make the same
observation from states that agree in the block's registers, its parameters and its draws (30_encoding.md sections 1, 2 and 4,
70_reset_and_hazards.md sections 1 and 2). -/
def Obligations.IgnoredInputsAreUnobservable : Prop :=
  ∀ (n : Nat) (s t : State), s.outputs = t.outputs → s.activeMode = t.activeMode → s.config = t.config → s.draws = t.draws →
    List.Forall₂ SameSample s.inputs t.inputs → observe n s = observe n t
end

