-- ==== Sys2Proof/Laws/Decode.lean ====
section
/-! SUPPORT. The fields of a control word as numbers, and the fields of a control word the assembler writes. -/

namespace Sys2Proof.Machine

theorem ctrlRsv_iff (c : CtrlWord) : ctrlRsv c = true ↔ 128 ≤ c.toNat := by
  revert c; decide

theorem ctrlOp_toNat (c : CtrlWord) : (ctrlOp c).toNat = rawOp c := by
  revert c; decide

theorem ctrlSel_toNat (c : CtrlWord) : (ctrlSel c).toNat = rawSel c := by
  revert c; decide

theorem rawReserved_iff (c : CtrlWord) :
    RawReserved c ↔ c.getLsbD 7 = true ∨ c.extractLsb' 0 4 = 0x0 ∨ 0x9 ≤ (c.extractLsb' 0 4).toNat := by
  revert c; decide

theorem ctrlRsv_ctrlWord (sel : Sel) (op : BitVec 4) : ctrlRsv (ctrlWord sel op) = false := by
  revert sel op; decide

theorem ctrlOp_ctrlWord (sel : Sel) (op : BitVec 4) : ctrlOp (ctrlWord sel op) = op := by
  revert sel op; decide

theorem ctrlSel_ctrlWord (sel : Sel) (op : BitVec 4) : ctrlSel (ctrlWord sel op) = sel := by
  revert sel op; decide

/-- What a request decodes to is decided by its fields: decoding once, and every case of it named. -/
theorem decode_cases (r : Request) :
    (RawReserved r.ctrl ∧ ∃ e, decode r = .error e) ∨
    (¬ RawReserved r.ctrl ∧
      ((rawOp r.ctrl = 1 ∧ decode r = .ok .measCmd) ∨
       (rawOp r.ctrl = 2 ∧ decode r = .ok (.setPm r.a)) ∨
       (rawOp r.ctrl = 3 ∧ decode r = .ok (.enLpm r.a)) ∨
       (rawOp r.ctrl = 4 ∧ decode r = .ok (.fixCmd (ctrlSel r.ctrl))) ∨
       (rawOp r.ctrl = 5 ∧ decode r = .ok (.conv r.a r.b)) ∨
       (rawOp r.ctrl = 6 ∧ decode r = .ok (.thdEnc (ctrlSel r.ctrl) r.a r.b)) ∨
       (rawOp r.ctrl = 7 ∧ decode r = .ok (.thdDec (ctrlSel r.ctrl) r.a)) ∨
       (rawOp r.ctrl = 8 ∧ decode r = .ok (.thdRCmd (ctrlSel r.ctrl))))) := by
  have hrsv := ctrlRsv_iff r.ctrl
  have hop := ctrlOp_toNat r.ctrl
  have hlt : rawOp r.ctrl < 16 := Nat.mod_lt _ (by decide)
  unfold decode RawReserved
  rw [hop]
  by_cases h : ctrlRsv r.ctrl = true
  · exact .inl ⟨.inl (hrsv.mp h), ⟨_, by rw [if_pos h]⟩⟩
  · have h' : ¬ 128 ≤ r.ctrl.toNat := fun x => h (hrsv.mpr x)
    rw [if_neg h]
    generalize rawOp r.ctrl = n at hlt ⊢
    interval_cases n <;> simp [h']

end Sys2Proof.Machine
end

