-- ==== Sys2Proof/Laws/State.lean ====
section
/-! SUPPORT. One lemma per field per update of the state. -/

namespace Sys2Proof.Machine

/-! ### `State.setMode` -/

@[simp] theorem setMode_activeMode (m : Mode) (s : State) : (s.setMode m).activeMode = m := rfl
@[simp] theorem setMode_r0 (m : Mode) (s : State) : (s.setMode m).r0 = s.r0 := rfl
@[simp] theorem setMode_r1 (m : Mode) (s : State) : (s.setMode m).r1 = s.r1 := rfl
@[simp] theorem setMode_cmd (m : Mode) (s : State) : (s.setMode m).cmd = s.cmd := rfl
@[simp] theorem setMode_cmdValid (m : Mode) (s : State) : (s.setMode m).cmdValid = s.cmdValid := rfl
@[simp] theorem setMode_status (m : Mode) (s : State) : (s.setMode m).status = s.status := rfl
@[simp] theorem setMode_rspValid (m : Mode) (s : State) : (s.setMode m).rspValid = s.rspValid := rfl
@[simp] theorem setMode_config (m : Mode) (s : State) : (s.setMode m).config = s.config := rfl
@[simp] theorem setMode_inputs (m : Mode) (s : State) : (s.setMode m).inputs = s.inputs := rfl
@[simp] theorem setMode_draws (m : Mode) (s : State) : (s.setMode m).draws = s.draws := rfl

/-! ### `State.setR0` -/

@[simp] theorem setR0_activeMode (v : DWord) (s : State) : (s.setR0 v).activeMode = s.activeMode := rfl
@[simp] theorem setR0_r0 (v : DWord) (s : State) : (s.setR0 v).r0 = v := rfl
@[simp] theorem setR0_r1 (v : DWord) (s : State) : (s.setR0 v).r1 = s.r1 := rfl
@[simp] theorem setR0_cmd (v : DWord) (s : State) : (s.setR0 v).cmd = s.cmd := rfl
@[simp] theorem setR0_cmdValid (v : DWord) (s : State) : (s.setR0 v).cmdValid = s.cmdValid := rfl
@[simp] theorem setR0_status (v : DWord) (s : State) : (s.setR0 v).status = s.status := rfl
@[simp] theorem setR0_rspValid (v : DWord) (s : State) : (s.setR0 v).rspValid = s.rspValid := rfl
@[simp] theorem setR0_config (v : DWord) (s : State) : (s.setR0 v).config = s.config := rfl
@[simp] theorem setR0_inputs (v : DWord) (s : State) : (s.setR0 v).inputs = s.inputs := rfl
@[simp] theorem setR0_draws (v : DWord) (s : State) : (s.setR0 v).draws = s.draws := rfl

/-! ### `State.setR1` -/

@[simp] theorem setR1_activeMode (v : DWord) (s : State) : (s.setR1 v).activeMode = s.activeMode := rfl
@[simp] theorem setR1_r0 (v : DWord) (s : State) : (s.setR1 v).r0 = s.r0 := rfl
@[simp] theorem setR1_r1 (v : DWord) (s : State) : (s.setR1 v).r1 = v := rfl
@[simp] theorem setR1_cmd (v : DWord) (s : State) : (s.setR1 v).cmd = s.cmd := rfl
@[simp] theorem setR1_cmdValid (v : DWord) (s : State) : (s.setR1 v).cmdValid = s.cmdValid := rfl
@[simp] theorem setR1_status (v : DWord) (s : State) : (s.setR1 v).status = s.status := rfl
@[simp] theorem setR1_rspValid (v : DWord) (s : State) : (s.setR1 v).rspValid = s.rspValid := rfl
@[simp] theorem setR1_config (v : DWord) (s : State) : (s.setR1 v).config = s.config := rfl
@[simp] theorem setR1_inputs (v : DWord) (s : State) : (s.setR1 v).inputs = s.inputs := rfl
@[simp] theorem setR1_draws (v : DWord) (s : State) : (s.setR1 v).draws = s.draws := rfl

/-! ### `State.advanceDraws` -/

@[simp] theorem advanceDraws_activeMode (k : Nat) (s : State) : (s.advanceDraws k).activeMode = s.activeMode := rfl
@[simp] theorem advanceDraws_r0 (k : Nat) (s : State) : (s.advanceDraws k).r0 = s.r0 := rfl
@[simp] theorem advanceDraws_r1 (k : Nat) (s : State) : (s.advanceDraws k).r1 = s.r1 := rfl
@[simp] theorem advanceDraws_cmd (k : Nat) (s : State) : (s.advanceDraws k).cmd = s.cmd := rfl
@[simp] theorem advanceDraws_cmdValid (k : Nat) (s : State) : (s.advanceDraws k).cmdValid = s.cmdValid := rfl
@[simp] theorem advanceDraws_status (k : Nat) (s : State) : (s.advanceDraws k).status = s.status := rfl
@[simp] theorem advanceDraws_rspValid (k : Nat) (s : State) : (s.advanceDraws k).rspValid = s.rspValid := rfl
@[simp] theorem advanceDraws_config (k : Nat) (s : State) : (s.advanceDraws k).config = s.config := rfl
@[simp] theorem advanceDraws_inputs (k : Nat) (s : State) : (s.advanceDraws k).inputs = s.inputs := rfl
@[simp] theorem advanceDraws_draws (k : Nat) (s : State) : (s.advanceDraws k).draws = s.draws + k := rfl

/-! ### `State.respond` -/

@[simp] theorem respond_activeMode (c : StatusCode) (v : Bool) (s : State) : (s.respond c v).activeMode = s.activeMode := rfl
@[simp] theorem respond_r0 (c : StatusCode) (v : Bool) (s : State) : (s.respond c v).r0 = s.r0 := rfl
@[simp] theorem respond_r1 (c : StatusCode) (v : Bool) (s : State) : (s.respond c v).r1 = s.r1 := rfl
@[simp] theorem respond_cmd (c : StatusCode) (v : Bool) (s : State) : (s.respond c v).cmd = s.cmd := rfl
@[simp] theorem respond_cmdValid (c : StatusCode) (v : Bool) (s : State) : (s.respond c v).cmdValid = v := rfl
@[simp] theorem respond_status (c : StatusCode) (v : Bool) (s : State) : (s.respond c v).status = c.word := rfl
@[simp] theorem respond_rspValid (c : StatusCode) (v : Bool) (s : State) : (s.respond c v).rspValid = true := rfl
@[simp] theorem respond_config (c : StatusCode) (v : Bool) (s : State) : (s.respond c v).config = s.config := rfl
@[simp] theorem respond_inputs (c : StatusCode) (v : Bool) (s : State) : (s.respond c v).inputs = s.inputs := rfl
@[simp] theorem respond_draws (c : StatusCode) (v : Bool) (s : State) : (s.respond c v).draws = s.draws := rfl

/-! ### `State.succeedWithCommand` -/

@[simp] theorem succeedWithCommand_activeMode (w : Word) (s : State) : (s.succeedWithCommand w).activeMode = s.activeMode := rfl
@[simp] theorem succeedWithCommand_r0 (w : Word) (s : State) : (s.succeedWithCommand w).r0 = s.r0 := rfl
@[simp] theorem succeedWithCommand_r1 (w : Word) (s : State) : (s.succeedWithCommand w).r1 = s.r1 := rfl
@[simp] theorem succeedWithCommand_cmd (w : Word) (s : State) : (s.succeedWithCommand w).cmd = w := rfl
@[simp] theorem succeedWithCommand_cmdValid (w : Word) (s : State) : (s.succeedWithCommand w).cmdValid = true := rfl
@[simp] theorem succeedWithCommand_status (w : Word) (s : State) : (s.succeedWithCommand w).status = StatusCode.ok.word := rfl
@[simp] theorem succeedWithCommand_rspValid (w : Word) (s : State) : (s.succeedWithCommand w).rspValid = true := rfl
@[simp] theorem succeedWithCommand_config (w : Word) (s : State) : (s.succeedWithCommand w).config = s.config := rfl
@[simp] theorem succeedWithCommand_inputs (w : Word) (s : State) : (s.succeedWithCommand w).inputs = s.inputs := rfl
@[simp] theorem succeedWithCommand_draws (w : Word) (s : State) : (s.succeedWithCommand w).draws = s.draws := rfl

/-! ### `State.succeed` -/

@[simp] theorem succeed_activeMode (s : State) : s.succeed.activeMode = s.activeMode := rfl
@[simp] theorem succeed_r0 (s : State) : s.succeed.r0 = s.r0 := rfl
@[simp] theorem succeed_r1 (s : State) : s.succeed.r1 = s.r1 := rfl
@[simp] theorem succeed_cmd (s : State) : s.succeed.cmd = s.cmd := rfl
@[simp] theorem succeed_cmdValid (s : State) : s.succeed.cmdValid = false := rfl
@[simp] theorem succeed_status (s : State) : s.succeed.status = StatusCode.ok.word := rfl
@[simp] theorem succeed_rspValid (s : State) : s.succeed.rspValid = true := rfl
@[simp] theorem succeed_config (s : State) : s.succeed.config = s.config := rfl
@[simp] theorem succeed_inputs (s : State) : s.succeed.inputs = s.inputs := rfl
@[simp] theorem succeed_draws (s : State) : s.succeed.draws = s.draws := rfl

/-! ### `State.failInvalidParams` -/

@[simp] theorem failInvalidParams_activeMode (s : State) : s.failInvalidParams.activeMode = s.activeMode := rfl
@[simp] theorem failInvalidParams_r0 (s : State) : s.failInvalidParams.r0 = s.r0 := rfl
@[simp] theorem failInvalidParams_r1 (s : State) : s.failInvalidParams.r1 = s.r1 := rfl
@[simp] theorem failInvalidParams_cmd (s : State) : s.failInvalidParams.cmd = s.cmd := rfl
@[simp] theorem failInvalidParams_cmdValid (s : State) : s.failInvalidParams.cmdValid = false := rfl
@[simp] theorem failInvalidParams_status (s : State) : s.failInvalidParams.status = StatusCode.invalidParams.word := rfl
@[simp] theorem failInvalidParams_rspValid (s : State) : s.failInvalidParams.rspValid = true := rfl
@[simp] theorem failInvalidParams_config (s : State) : s.failInvalidParams.config = s.config := rfl
@[simp] theorem failInvalidParams_inputs (s : State) : s.failInvalidParams.inputs = s.inputs := rfl
@[simp] theorem failInvalidParams_draws (s : State) : s.failInvalidParams.draws = s.draws := rfl

/-! ### `State.idle` -/

@[simp] theorem idle_activeMode (s : State) : s.idle.activeMode = s.activeMode := rfl
@[simp] theorem idle_r0 (s : State) : s.idle.r0 = s.r0 := rfl
@[simp] theorem idle_r1 (s : State) : s.idle.r1 = s.r1 := rfl
@[simp] theorem idle_cmd (s : State) : s.idle.cmd = s.cmd := rfl
@[simp] theorem idle_cmdValid (s : State) : s.idle.cmdValid = s.cmdValid := rfl
@[simp] theorem idle_status (s : State) : s.idle.status = s.status := rfl
@[simp] theorem idle_rspValid (s : State) : s.idle.rspValid = false := rfl
@[simp] theorem idle_config (s : State) : s.idle.config = s.config := rfl
@[simp] theorem idle_inputs (s : State) : s.idle.inputs = s.inputs := rfl
@[simp] theorem idle_draws (s : State) : s.idle.draws = s.draws := rfl

/-! ### `State.resetRegisters` -/

@[simp] theorem resetRegisters_activeMode (s : State) : s.resetRegisters.activeMode = Mode.hpm := rfl
@[simp] theorem resetRegisters_r0 (s : State) : s.resetRegisters.r0 = 0#32 := rfl
@[simp] theorem resetRegisters_r1 (s : State) : s.resetRegisters.r1 = 0#32 := rfl
@[simp] theorem resetRegisters_cmd (s : State) : s.resetRegisters.cmd = 0#16 := rfl
@[simp] theorem resetRegisters_cmdValid (s : State) : s.resetRegisters.cmdValid = false := rfl
@[simp] theorem resetRegisters_status (s : State) : s.resetRegisters.status = 0#16 := rfl
@[simp] theorem resetRegisters_rspValid (s : State) : s.resetRegisters.rspValid = false := rfl
@[simp] theorem resetRegisters_config (s : State) : s.resetRegisters.config = s.config := rfl
@[simp] theorem resetRegisters_inputs (s : State) : s.resetRegisters.inputs = s.inputs := rfl
@[simp] theorem resetRegisters_draws (s : State) : s.resetRegisters.draws = s.draws := rfl

/-! ### `State.takeInput` -/

@[simp] theorem takeInput_activeMode (s : State) : s.takeInput.activeMode = s.activeMode := rfl
@[simp] theorem takeInput_r0 (s : State) : s.takeInput.r0 = s.r0 := rfl
@[simp] theorem takeInput_r1 (s : State) : s.takeInput.r1 = s.r1 := rfl
@[simp] theorem takeInput_cmd (s : State) : s.takeInput.cmd = s.cmd := rfl
@[simp] theorem takeInput_cmdValid (s : State) : s.takeInput.cmdValid = s.cmdValid := rfl
@[simp] theorem takeInput_status (s : State) : s.takeInput.status = s.status := rfl
@[simp] theorem takeInput_rspValid (s : State) : s.takeInput.rspValid = s.rspValid := rfl
@[simp] theorem takeInput_config (s : State) : s.takeInput.config = s.config := rfl
@[simp] theorem takeInput_inputs (s : State) : s.takeInput.inputs = s.inputs.tail := rfl
@[simp] theorem takeInput_draws (s : State) : s.takeInput.draws = s.draws := rfl

/-! ### `State.putInput` -/

@[simp] theorem putInput_activeMode (p : PortInput) (s : State) : (s.putInput p).activeMode = s.activeMode := rfl
@[simp] theorem putInput_r0 (p : PortInput) (s : State) : (s.putInput p).r0 = s.r0 := rfl
@[simp] theorem putInput_r1 (p : PortInput) (s : State) : (s.putInput p).r1 = s.r1 := rfl
@[simp] theorem putInput_cmd (p : PortInput) (s : State) : (s.putInput p).cmd = s.cmd := rfl
@[simp] theorem putInput_cmdValid (p : PortInput) (s : State) : (s.putInput p).cmdValid = s.cmdValid := rfl
@[simp] theorem putInput_status (p : PortInput) (s : State) : (s.putInput p).status = s.status := rfl
@[simp] theorem putInput_rspValid (p : PortInput) (s : State) : (s.putInput p).rspValid = s.rspValid := rfl
@[simp] theorem putInput_config (p : PortInput) (s : State) : (s.putInput p).config = s.config := rfl
@[simp] theorem putInput_inputs (p : PortInput) (s : State) : (s.putInput p).inputs = p :: s.inputs.tail := rfl
@[simp] theorem putInput_draws (p : PortInput) (s : State) : (s.putInput p).draws = s.draws := rfl

/-! ### The output ports -/

@[simp] theorem outputs_rspValid (s : State) : s.outputs.rspValid = s.rspValid := rfl
@[simp] theorem outputs_status (s : State) : s.outputs.status = s.status := rfl
@[simp] theorem outputs_r0 (s : State) : s.outputs.r0 = s.r0 := rfl
@[simp] theorem outputs_r1 (s : State) : s.outputs.r1 = s.r1 := rfl
@[simp] theorem outputs_cmd (s : State) : s.outputs.cmd = s.cmd := rfl
@[simp] theorem outputs_cmdValid (s : State) : s.outputs.cmdValid = s.cmdValid := rfl

/-! ### The status words -/

@[simp] theorem word_ok : StatusCode.ok.word = 0x0000#16 := rfl
@[simp] theorem word_invalidParams : StatusCode.invalidParams.word = 0xFFFC#16 := rfl

end Sys2Proof.Machine
end

