-- ==== Sys2Proof/Laws/Operands.lean ====
section
/-! SUPPORT. What the operand forms and the command lookups can answer. -/

namespace Sys2Proof.Machine

/-- The mode SETPM's operand selects, case by case (R75). -/
theorem modeOfCode_eq (a : Word) : modeOfCode a = if a = 0 then .lpm else if a = 1 then .mpm else .hpm := by
  by_cases h0 : a = 0
  · subst h0; rfl
  by_cases h1 : a = 1
  · subst h1; rfl
  have e0 : a.toNat ≠ 0 := fun h => h0 (BitVec.eq_of_toNat_eq h)
  have e1 : a.toNat ≠ 1 := fun h => h1 (BitVec.eq_of_toNat_eq h)
  simp only [h0, h1, if_false, modeOfCode, u16]

/-- The mode ENLPM's operand selects, case by case (R76). -/
theorem modeOfBool_eq (a : Word) : modeOfBool a = if a = 0 then .hpm else .lpm := by
  by_cases h0 : a = 0
  · subst h0; rfl
  have e0 : a.toNat ≠ 0 := fun h => h0 (BitVec.eq_of_toNat_eq h)
  rw [modeOfBool, u16, if_pos e0, if_neg h0]

theorem alertSel_of_le {sel : Sel} (h : sel.toNat ≤ 3) : ∃ x, alertSel sel = some x := by
  refine Option.isSome_iff_exists.mp ?_
  revert sel; decide

theorem alertSel_of_ge {sel : Sel} (h : 4 ≤ sel.toNat) : alertSel sel = none := by
  revert sel; decide

/-- A defined selector is the position of its name in the order of R53. -/
theorem alertSel_eq_some {sel : Sel} {x : AlertSel} (h : alertSel sel = some x) :
    sel.toNat ≤ 3 ∧ [AlertSel.hs, .hc, .lc, .ls][sel.toNat]? = some x := by
  revert sel; cases x <;> decide

theorem alertSel_injective {sel sel' : Sel} {x : AlertSel} (h : alertSel sel = some x) (h' : alertSel sel' = some x) :
    sel = sel' := by
  revert sel sel'; cases x <;> decide

/-- The lookups of R78 read the lists the rule writes. -/
theorem alertWrCommand_eq {sel : Sel} {x : AlertSel} (h : alertSel sel = some x) (t : CmdTable) :
    alertWrCommand t x = [t.alertWrHs, t.alertWrHc, t.alertWrLc, t.alertWrLs].getD sel.toNat 0 := by
  obtain ⟨hle, hx⟩ := alertSel_eq_some h
  generalize sel.toNat = n at hle hx
  interval_cases n <;> simp at hx <;> subst hx <;> rfl

theorem alertRdCommand_eq {sel : Sel} {x : AlertSel} (h : alertSel sel = some x) (t : CmdTable) :
    alertRdCommand t x = [t.alertRdHs, t.alertRdHc, t.alertRdLc, t.alertRdLs].getD sel.toNat 0 := by
  obtain ⟨hle, hx⟩ := alertSel_eq_some h
  generalize sel.toNat = n at hle hx
  interval_cases n <;> simp at hx <;> subst hx <;> rfl

theorem fixedCommand_of_ge {sel : Sel} (h : 3 ≤ sel.toNat) (t : CmdTable) : fixedCommand t sel = none := by
  have hlt := sel.isLt
  unfold fixedCommand
  generalize sel.toNat = n at *
  interval_cases n <;> rfl

theorem fixedCommand_of_le {sel : Sel} (h : sel.toNat ≤ 2) (t : CmdTable) :
    ∃ w, fixedCommand t sel = some w ∧ w ∈ t.fixed := by
  unfold fixedCommand CmdTable.fixed
  generalize sel.toNat = n at *
  interval_cases n <;> simp

theorem measCommand_mem (c : Config) (m : Mode) :
    measCommand c.cmdTable c.clockStretch m ∈ if c.clockStretch then c.cmdTable.measCs else c.cmdTable.measNocs := by
  cases h : c.clockStretch <;> cases m <;> simp [measCommand, CmdTable.measCs, CmdTable.measNocs]

theorem alertWrCommand_mem (t : CmdTable) (x : AlertSel) : alertWrCommand t x ∈ t.alert := by
  cases x <;> simp [alertWrCommand, CmdTable.alert]

theorem alertRdCommand_mem (t : CmdTable) (x : AlertSel) : alertRdCommand t x ∈ t.alert := by
  cases x <;> simp [alertRdCommand, CmdTable.alert]

/-- A 32-bit register holds an integer of its range exactly. -/
theorem trunc32_toInt {v : Int} (hlo : -2147483648 ≤ v) (hhi : v < 2147483648) : (trunc32 v).toInt = v := by
  unfold trunc32
  rw [BitVec.toInt_ofInt]
  exact Int.bmod_eq_of_le (by omega) (by omega)

@[simp] theorem zext32_toNat (w : Word) : (zext32 w).toNat = w.toNat := by
  have := w.isLt
  simp only [zext32, BitVec.toNat_setWidth]
  omega

end Sys2Proof.Machine
end

