-- ==== Sys2Proof/Laws/Threshold.lean ====
section
/-! SUPPORT. What the conditioning, the conversions and the packing of the threshold unit can answer. -/

namespace Sys2Proof.Machine

theorem conditionH_of_le {h : Nat} (p : ThdRangePolicy) (hh : h ≤ 1000) : conditionH p h = some h := by
  cases p <;> simp [conditionH, hh]

theorem conditionT_of_range {t : Int} (p : ThdRangePolicy) (hlo : -450 ≤ t) (hhi : t ≤ 1300) :
    conditionT p t = some t := by
  cases p <;> simp [conditionT, clamp, hlo, hhi]

theorem conditionH_saturate (h : Nat) : conditionH .saturate h = some (min h 1000) := rfl

theorem conditionT_saturate (t : Int) : conditionT .saturate t = some (clamp t (-450) 1300) := rfl

theorem clamp_range (t : Int) : -450 ≤ clamp t (-450) 1300 ∧ clamp t (-450) 1300 ≤ 1300 := by
  unfold clamp; omega

/-- The 16-bit fraction of a conditioned humidity (R103). -/
theorem thdEncH_le {h : Nat} (hh : h ≤ 1000) : thdEncH h ≤ 65535 := by
  unfold thdEncH roundHalfUp; omega

/-- The 16-bit fraction of a conditioned temperature (R104). -/
theorem thdEncT_le {t : Int} (hhi : t ≤ 1300) : thdEncT t ≤ 65535 := by
  unfold thdEncT; omega

/-- A THDENC under SATURATE, or with both inputs in range, draws nothing (R102). -/
theorem limitDraws_eq_zero {p : ThdRangePolicy} {a b : Word}
    (h : p = .saturate ∨ (a.toNat ≤ 1000 ∧ -450 ≤ b.toInt ∧ b.toInt ≤ 1300)) : limitDraws p (u16 a) (s16 b) = 0 := by
  obtain rfl | ⟨h0, h1, h2⟩ := h
  · rfl
  · simp [limitDraws, conditionH_of_le (h := u16 a) p h0, conditionT_of_range (t := s16 b) p h1 h2]

/-- The 32-bit clamps are those of R102. -/
theorem clampH32_toNat (a : Word) : (clampH32 a).toNat = min a.toNat 1000 := by
  have := a.isLt
  unfold clampH32
  split <;> rename_i h <;> simp only [BitVec.lt_def, BitVec.toNat_setWidth, BitVec.toNat_ofNat] at * <;> omega

theorem clampT32_toInt (b : Word) : (clampT32 b).toInt = clamp b.toInt (-450) 1300 := by
  have e : (b.signExtend 32).toInt = b.toInt := BitVec.toInt_signExtend_of_le (by omega)
  have e1 : (-450#32).toInt = -450 := by decide
  have e2 : (1300#32).toInt = 1300 := by decide
  unfold clampT32 clamp
  simp only [BitVec.slt, e, e1, e2, decide_eq_true_eq]
  split
  · rw [e1]; omega
  · split
    · rw [e2]; omega
    · rw [e]; omega

/-- A humidity in range gives the upper seven bits of its fraction. -/
theorem fieldHB_toNat {p : ThdRangePolicy} {n h e : Nat} (hc : conditionH p h = some e) (he : e ≤ 1000) :
    (fieldHB p n h).toNat = thdEncH e / 512 := by
  have := thdEncH_le he
  simp only [fieldHB, hc, BitVec.toNat_ofNat, Nat.shiftRight_eq_div_pow]
  omega

/-- A temperature in range gives the upper nine bits of its fraction. -/
theorem fieldTB_toNat {p : ThdRangePolicy} {n : Nat} {t e : Int} (hc : conditionT p t = some e) (he : e ≤ 1300) :
    (fieldTB p n t).toNat = thdEncT e / 128 := by
  have := thdEncT_le he
  simp only [fieldTB, hc, BitVec.toNat_ofNat, Nat.shiftRight_eq_div_pow]
  omega

/-- The limit word is its humidity field over its temperature field (R105). -/
theorem limitWord_toNat (p : ThdRangePolicy) (n h : Nat) (t : Int) :
    (limitWord p n h t).toNat = (fieldHB p n h).toNat * 512 + (fieldTB p n t).toNat := by
  have := (fieldTB p n t).isLt
  simp only [limitWord, BitVec.toNat_append]
  rw [← Nat.shiftLeft_add_eq_or_of_lt this, Nat.shiftLeft_eq]

/-- The two masks of R43 take the limit word apart. -/
theorem and_humidityMask (w : Word) : (w &&& 0xFE00#16).toNat = w.toNat / 512 * 512 := by
  have hshift : w &&& 0xFE00#16 = (w >>> 9) <<< 9 := by
    apply BitVec.eq_of_getLsbD_eq
    intro i hi
    interval_cases i <;> simp
  have := w.isLt
  rw [hshift, BitVec.toNat_shiftLeft, BitVec.toNat_ushiftRight, Nat.shiftLeft_eq, Nat.shiftRight_eq_div_pow]
  omega

theorem and_temperatureMask (w : Word) : (w &&& 0x01FF#16).toNat = w.toNat % 512 := by
  rw [BitVec.toNat_and]
  exact Nat.and_two_pow_sub_one_eq_mod w.toNat 9

/-- `ThdDecH` reads the upper seven bits alone. -/
theorem thdDecH_eq (w : Word) : thdDecH w = (2 * (1000 * (w.toNat / 512 * 512)) + 65535) / (2 * 65535) := by
  rw [thdDecH, roundHalfUp, and_humidityMask]

/-- `ThdDecT` reads the lower nine bits alone. -/
theorem thdDecT_eq (w : Word) : thdDecT w = ((w.toNat % 512 * 128 * 1750 / 65535 : Nat) : Int) - 450 := by
  rw [thdDecT, and_temperatureMask, Nat.shiftLeft_eq]

/-- In range, the two fields of the limit word, under either policy (R103, R104, R105). -/
theorem limitWord_fields (p : ThdRangePolicy) (n : Nat) {h : Nat} {t : Int} (hh : h ≤ 1000) (hlo : -450 ≤ t) (hhi : t ≤ 1300) :
    (limitWord p n h t).toNat / 512 = thdEncH h / 512 ∧ (limitWord p n h t).toNat % 512 = thdEncT t / 128 := by
  have hH := fieldHB_toNat (n := n) (conditionH_of_le p hh) hh
  have hT := fieldTB_toNat (n := n) (conditionT_of_range p hlo hhi) hhi
  have := thdEncT_le hhi
  rw [limitWord_toNat, hH, hT]
  omega

end Sys2Proof.Machine
end

