-- ==== Sys2Proof/Laws/Exec.lean ====
section
/-! SUPPORT. One equation per operation and outcome, and what every operation has in common. -/

namespace Sys2Proof.Machine

@[simp] theorem exec_measCmd (s : State) :
    exec .measCmd s =
      .next (s.succeedWithCommand (measCommand s.config.cmdTable s.config.clockStretch s.activeMode)) := rfl

@[simp] theorem exec_setPm (a : Word) (s : State) : exec (.setPm a) s = .next (s.setMode (modeOfCode a)).succeed := rfl

@[simp] theorem exec_enLpm (a : Word) (s : State) : exec (.enLpm a) s = .next (s.setMode (modeOfBool a)).succeed := rfl

@[simp] theorem exec_conv (a b : Word) (s : State) :
    exec (.conv a b) s =
      .next ((s.setR0 (trunc32 (decodeT (u16 a)))).setR1 (trunc32 (decodeRH (u16 b)))).succeed := rfl

theorem exec_fixCmd_some {sel : Sel} {s : State} {w : Word} (h : fixedCommand s.config.cmdTable sel = some w) :
    exec (.fixCmd sel) s = .next (s.succeedWithCommand w) := by
  simp only [exec, execFixCmd, h]

theorem exec_fixCmd_fail {sel : Sel} (h : 3 ≤ sel.toNat) (s : State) :
    exec (.fixCmd sel) s = .next s.failInvalidParams := by
  simp only [exec, execFixCmd, fixedCommand_of_ge h]

theorem exec_thdEnc_some {sel : Sel} {x : AlertSel} (h : alertSel sel = some x) (a b : Word) (s : State) :
    exec (.thdEnc sel a b) s =
      .next (((s.setR0 (zext32 (limitWord s.config.thdRangePolicy s.draws (u16 a) (s16 b)))).advanceDraws
        (limitDraws s.config.thdRangePolicy (u16 a) (s16 b))).succeedWithCommand
        (alertWrCommand s.config.cmdTable x)) := by
  simp only [exec, execThdEnc, h]

theorem exec_thdEnc_fail {sel : Sel} (h : 4 ≤ sel.toNat) (a b : Word) (s : State) :
    exec (.thdEnc sel a b) s = .next s.failInvalidParams := by
  simp only [exec, execThdEnc, alertSel_of_ge h]

theorem exec_thdDec_some {sel : Sel} (h : sel.toNat ≤ 3) (a : Word) (s : State) :
    exec (.thdDec sel a) s = .next ((s.setR0 (trunc32 (thdDecH a))).setR1 (trunc32 (thdDecT a))).succeed := by
  obtain ⟨x, hx⟩ := alertSel_of_le h
  simp only [exec, execThdDec, hx]

theorem exec_thdDec_fail {sel : Sel} (h : 4 ≤ sel.toNat) (a : Word) (s : State) :
    exec (.thdDec sel a) s = .next s.failInvalidParams := by
  simp only [exec, execThdDec, alertSel_of_ge h]

theorem exec_thdRCmd_some {sel : Sel} {x : AlertSel} (h : alertSel sel = some x) (s : State) :
    exec (.thdRCmd sel) s = .next (s.succeedWithCommand (alertRdCommand s.config.cmdTable x)) := by
  simp only [exec, execThdRCmd, h]

theorem exec_thdRCmd_fail {sel : Sel} (h : 4 ≤ sel.toNat) (s : State) :
    exec (.thdRCmd sel) s = .next s.failInvalidParams := by
  simp only [exec, execThdRCmd, alertSel_of_ge h]

theorem wellFormed_fixCmd (sel : Sel) : (Instr.fixCmd sel).wellFormed = true ↔ sel.toNat ≤ 2 := by
  simp [Instr.wellFormed, fixSelDefined]

theorem alertSelDefined_iff (sel : Sel) : alertSelDefined sel = true ↔ sel.toNat ≤ 3 := by
  simp [alertSelDefined]

/-- An operation whose selector is not defined does exactly `fail InvalidParams` (R77, R101). -/
theorem exec_illFormed {i : Instr} (h : i.wellFormed = false) (s : State) : exec i s = .next s.failInvalidParams := by
  cases i with
  | measCmd => cases h
  | setPm a => cases h
  | enLpm a => cases h
  | conv a b => cases h
  | fixCmd sel => exact exec_fixCmd_fail (by simp [Instr.wellFormed, fixSelDefined] at h; omega) s
  | thdEnc sel a b => exact exec_thdEnc_fail (by simp [Instr.wellFormed, alertSelDefined] at h; omega) a b s
  | thdDec sel a => exact exec_thdDec_fail (by simp [Instr.wellFormed, alertSelDefined] at h; omega) a s
  | thdRCmd sel => exact exec_thdRCmd_fail (by simp [Instr.wellFormed, alertSelDefined] at h; omega) s

/-- What an operation can do, said once: it fails for its selector, or it is one of the eight and has that one's effect. -/
theorem exec_cases (i : Instr) (s : State) :
    (i.wellFormed = false ∧ exec i s = .next s.failInvalidParams) ∨
    (i = .measCmd ∧
      exec i s = .next (s.succeedWithCommand (measCommand s.config.cmdTable s.config.clockStretch s.activeMode))) ∨
    (∃ a, i = .setPm a ∧ exec i s = .next (s.setMode (modeOfCode a)).succeed) ∨
    (∃ a, i = .enLpm a ∧ exec i s = .next (s.setMode (modeOfBool a)).succeed) ∨
    (∃ sel w, i = .fixCmd sel ∧ sel.toNat ≤ 2 ∧ fixedCommand s.config.cmdTable sel = some w ∧ w ∈ s.config.cmdTable.fixed ∧
      exec i s = .next (s.succeedWithCommand w)) ∨
    (∃ a b, i = .conv a b ∧
      exec i s = .next ((s.setR0 (trunc32 (decodeT (u16 a)))).setR1 (trunc32 (decodeRH (u16 b)))).succeed) ∨
    (∃ sel x a b, i = .thdEnc sel a b ∧ sel.toNat ≤ 3 ∧ alertSel sel = some x ∧
      exec i s = .next (((s.setR0 (zext32 (limitWord s.config.thdRangePolicy s.draws (u16 a) (s16 b)))).advanceDraws
        (limitDraws s.config.thdRangePolicy (u16 a) (s16 b))).succeedWithCommand (alertWrCommand s.config.cmdTable x))) ∨
    (∃ sel a, i = .thdDec sel a ∧ sel.toNat ≤ 3 ∧
      exec i s = .next ((s.setR0 (trunc32 (thdDecH a))).setR1 (trunc32 (thdDecT a))).succeed) ∨
    (∃ sel x, i = .thdRCmd sel ∧ sel.toNat ≤ 3 ∧ alertSel sel = some x ∧
      exec i s = .next (s.succeedWithCommand (alertRdCommand s.config.cmdTable x))) := by
  cases h : i.wellFormed with
  | false => exact .inl ⟨rfl, exec_illFormed h s⟩
  | true =>
    right
    cases i with
    | measCmd => exact .inl ⟨rfl, rfl⟩
    | setPm a => exact .inr (.inl ⟨a, rfl, rfl⟩)
    | enLpm a => exact .inr (.inr (.inl ⟨a, rfl, rfl⟩))
    | fixCmd sel =>
      have hle := (wellFormed_fixCmd sel).mp h
      obtain ⟨w, hw, hm⟩ := fixedCommand_of_le hle s.config.cmdTable
      exact .inr (.inr (.inr (.inl ⟨sel, w, rfl, hle, hw, hm, exec_fixCmd_some hw⟩)))
    | conv a b => exact .inr (.inr (.inr (.inr (.inl ⟨a, b, rfl, rfl⟩))))
    | thdEnc sel a b =>
      have hle := (alertSelDefined_iff sel).mp h
      obtain ⟨x, hx⟩ := alertSel_of_le hle
      exact .inr (.inr (.inr (.inr (.inr (.inl ⟨sel, x, a, b, rfl, hle, hx, exec_thdEnc_some hx a b s⟩)))))
    | thdDec sel a =>
      have hle := (alertSelDefined_iff sel).mp h
      exact .inr (.inr (.inr (.inr (.inr (.inr (.inl ⟨sel, a, rfl, hle, exec_thdDec_some hle a s⟩))))))
    | thdRCmd sel =>
      have hle := (alertSelDefined_iff sel).mp h
      obtain ⟨x, hx⟩ := alertSel_of_le hle
      exact .inr (.inr (.inr (.inr (.inr (.inr (.inr ⟨sel, x, rfl, hle, hx, exec_thdRCmd_some hx s⟩))))))

/-- Every operation answers a next state, with `RSP_VALID = 1`, the parameters and the host's list as before. -/
theorem exec_next (i : Instr) (s : State) :
    ∃ t, exec i s = .next t ∧ t.rspValid = true ∧ t.config = s.config ∧ t.inputs = s.inputs := by
  rcases exec_cases i s with ⟨-, h⟩ | ⟨-, h⟩ | ⟨_, -, h⟩ | ⟨_, -, h⟩ | ⟨_, _, -, -, -, -, h⟩ | ⟨_, _, -, h⟩ |
    ⟨_, _, _, _, -, -, -, h⟩ | ⟨_, _, -, -, h⟩ | ⟨_, _, -, -, -, h⟩ <;> exact ⟨_, h, rfl, rfl, rfl⟩

end Sys2Proof.Machine
end

