-- ==== Sys2Proof/Laws/PerInstr.lean ====
section
/-! SUPPORT. A fact about each operation as syntax: the control word the assembler writes for it is not reserved and carries its
operation code (spec/30_encoding.md R52, R59). -/

namespace Sys2Proof.Laws.EncodesOwnOpcode

/-- The operation code of R52. -/
def opcode : Instr → Nat
  | .measCmd => 0x1
  | .setPm _ => 0x2
  | .enLpm _ => 0x3
  | .fixCmd _ => 0x4
  | .conv _ _ => 0x5
  | .thdEnc _ _ _ => 0x6
  | .thdDec _ _ => 0x7
  | .thdRCmd _ => 0x8

/-- The control word of `i` is not reserved and its `OP` is `i`'s. -/
def Statement (i : Instr) : Prop := ctrlRsv (encode i).ctrl = false ∧ (ctrlOp (encode i).ctrl).toNat = opcode i

theorem measCmd : Statement .measCmd := ⟨rfl, rfl⟩

theorem setPm (a : Word) : Statement (.setPm a) := by
  simp [Statement, encode, opcode, Machine.ctrlRsv_ctrlWord, Machine.ctrlOp_ctrlWord]

theorem enLpm (a : Word) : Statement (.enLpm a) := by
  simp [Statement, encode, opcode, Machine.ctrlRsv_ctrlWord, Machine.ctrlOp_ctrlWord]

theorem fixCmd (sel : Sel) : Statement (.fixCmd sel) := by
  simp [Statement, encode, opcode, Machine.ctrlRsv_ctrlWord, Machine.ctrlOp_ctrlWord]

theorem conv (a b : Word) : Statement (.conv a b) := by
  simp [Statement, encode, opcode, Machine.ctrlRsv_ctrlWord, Machine.ctrlOp_ctrlWord]

theorem thdEnc (sel : Sel) (a b : Word) : Statement (.thdEnc sel a b) := by
  simp [Statement, encode, opcode, Machine.ctrlRsv_ctrlWord, Machine.ctrlOp_ctrlWord]

theorem thdDec (sel : Sel) (a : Word) : Statement (.thdDec sel a) := by
  simp [Statement, encode, opcode, Machine.ctrlRsv_ctrlWord, Machine.ctrlOp_ctrlWord]

theorem thdRCmd (sel : Sel) : Statement (.thdRCmd sel) := by
  simp [Statement, encode, opcode, Machine.ctrlRsv_ctrlWord, Machine.ctrlOp_ctrlWord]

end Sys2Proof.Laws.EncodesOwnOpcode
end

