-- ==== Sys2Proof/Laws/Step.lean ====
section
/-! SUPPORT. What one step can do, said once (spec/70_reset_and_hazards.md R153). -/

namespace Sys2Proof.Machine

@[simp] theorem presented_request (r : Request) : (presented r).request = r := rfl

/-- A presented request that decodes is accepted as what it decodes to. -/
theorem accepts_presented {r : Request} {i : Instr} (h : decode r = .ok i) : Accepts (presented r) i :=
  ⟨rfl, rfl, h⟩

/-- A step on a list of samples is an edge with the first of them. -/
theorem step_cons {s : State} {p : PortInput} {rest : List PortInput} (h : s.inputs = p :: rest) :
    step s = clockEdge p { s with inputs := rest } := by
  simp [step, nextInput, State.takeInput, h]

theorem clockEdge_reset {p : PortInput} (h : p.rst = true) (s : State) :
    clockEdge p s = .next s.resetRegisters := by
  simp [clockEdge, h]

theorem clockEdge_idle {p : PortInput} (h : IsIdle p) (s : State) : clockEdge p s = .next s.idle := by
  simp [clockEdge, h.1, h.2]

theorem clockEdge_accepts {p : PortInput} {i : Instr} (h : Accepts p i) (s : State) : clockEdge p s = exec i s := by
  simp [clockEdge, accept, h.1, h.2.1, h.2.2]

theorem clockEdge_reserved {p : PortInput} (h : p.rst = false) (hv : p.reqValid = true) (hr : RawReserved p.ctrl)
    (s : State) : clockEdge p s = .next s.failInvalidParams := by
  obtain ⟨-, e, he⟩ | ⟨hn, -⟩ := decode_cases p.request
  · simp [clockEdge, accept, h, hv, he]
  · exact absurd hr hn

/-- Every edge does one of four things. -/
theorem clockEdge_cases (p : PortInput) (s : State) :
    (p.rst = true ∧ clockEdge p s = .next s.resetRegisters) ∨
    (IsIdle p ∧ clockEdge p s = .next s.idle) ∨
    (p.rst = false ∧ p.reqValid = true ∧ RawReserved p.ctrl ∧ clockEdge p s = .next s.failInvalidParams) ∨
    (¬ RawReserved p.ctrl ∧ ∃ i, Accepts p i ∧ clockEdge p s = exec i s) := by
  cases hr : p.rst with
  | true => exact .inl ⟨rfl, clockEdge_reset hr s⟩
  | false =>
    cases hv : p.reqValid with
    | false => exact .inr (.inl ⟨⟨hr, hv⟩, clockEdge_idle ⟨hr, hv⟩ s⟩)
    | true =>
      obtain ⟨h, -⟩ | ⟨h, hd⟩ := decode_cases p.request
      · exact .inr (.inr (.inl ⟨rfl, rfl, h, clockEdge_reserved hr hv h s⟩))
      · have : ∃ i, decode p.request = .ok i := by
          rcases hd with ⟨-, h⟩ | ⟨-, h⟩ | ⟨-, h⟩ | ⟨-, h⟩ | ⟨-, h⟩ | ⟨-, h⟩ | ⟨-, h⟩ | ⟨-, h⟩ <;> exact ⟨_, h⟩
        obtain ⟨i, hi⟩ := this
        exact .inr (.inr (.inr ⟨h, i, ⟨hr, hv, hi⟩, clockEdge_accepts ⟨hr, hv, hi⟩ s⟩))

/-- A step answers a next state, with the parameters kept and one sample consumed. -/
theorem step_next (s : State) : ∃ t, step s = .next t ∧ t.config = s.config ∧ t.inputs = s.inputs.tail := by
  unfold step
  obtain ⟨-, h⟩ | ⟨-, h⟩ | ⟨-, -, -, h⟩ | ⟨-, i, -, h⟩ := clockEdge_cases (nextInput s) s.takeInput
  · exact ⟨_, h, rfl, rfl⟩
  · exact ⟨_, h, rfl, rfl⟩
  · exact ⟨_, h, rfl, rfl⟩
  · obtain ⟨t, ht, -, h1, h2⟩ := exec_next i s.takeInput
    exact ⟨t, h.trans ht, h1, h2⟩

/-- A run of one more step is that step and then the run. -/
theorem coreRun_succ (M : Host.Core) {n : Nat} {s t : M.State} (h : M.step s = .next t) :
    M.run (n + 1) s = M.run n t := by
  simp only [Host.Core.run, h]

theorem run_succ {n : Nat} {s t : State} (h : step s = .next t) :
    Host.Core.run Sys2Proof.core (n + 1) s = Host.Core.run Sys2Proof.core n t :=
  coreRun_succ Sys2Proof.core h

@[simp] theorem run_zero (s : State) : Host.Core.run Sys2Proof.core 0 s = .next s := rfl

end Sys2Proof.Machine
end

