-- ==== Sys2Proof/Tests/Slice0.lean ====
section
/-! SUPPORT. Tests. Every expected result is a vector or a program line of spec/95_test_vectors.md, or an example of the rule named;
every word is written out bit by bit from the encoding of the operation's rule. -/

namespace Sys2Proof.Tests

open Sys2Proof.Machine

/-- The outcome is a next state with property `f`. -/
def nextIs (o : Host.Outcome State Fault Refusal) (f : State → Bool) : Bool :=
  match o with
  | .next t => f t
  | .fault _ => false
  | .refused _ => false

/-- The state after reset with `CLOCK_STRETCH` and `ACTIVE_MODE` as given. -/
def start (cs : Bool) (m : Mode) : State :=
  { State.reset with activeMode := m, config := { Config.default with clockStretch := cs } }

/-- The state after reset with the range policy UNSPECIFIED. -/
def startUnspecified : State :=
  { State.reset with config := { Config.default with thdRangePolicy := .unspecified } }

/-- A request presented at the coming edge. -/
def ask (ctrl : CtrlWord) (a b : Word) : PortInput := presented ⟨ctrl, a, b⟩

/-- The state after reset with these edges to come. -/
def withEdges (l : List PortInput) : State := { State.reset with inputs := l }

/-! ### Well-formedness -/

theorem test_wf_fixCmd_refuses_3 : (Instr.fixCmd 3).wellFormed = false := by decide
theorem test_wf_thdEnc_refuses_4 : (Instr.thdEnc 4 500 250).wellFormed = false := by decide
theorem test_wf_thdDec_refuses_4 : (Instr.thdDec 4 0x80CC).wellFormed = false := by decide
theorem test_wf_thdRCmd_refuses_7 : (Instr.thdRCmd 7).wellFormed = false := by decide

/-! ### Decoding: words of R74 to R77, R95, R108 to R110 and R55 -/

theorem test_decode_measCmd : decode ⟨0b01110001#8, 0xFFFF#16, 0xFFFF#16⟩ = .ok .measCmd := by decide
theorem test_decode_setPm : decode ⟨0b00000010#8, 0xFFFF#16, 0x0000#16⟩ = .ok (.setPm 0xFFFF) := by decide
theorem test_decode_enLpm : decode ⟨0b00000011#8, 0x0007#16, 0x0000#16⟩ = .ok (.enLpm 7) := by decide
theorem test_decode_fixCmd : decode ⟨0b01010100#8, 0x0000#16, 0x0000#16⟩ = .ok (.fixCmd 5) := by decide
theorem test_decode_conv : decode ⟨0b00000101#8, 0x6666#16, 0x8000#16⟩ = .ok (.conv 0x6666 0x8000) := by decide
theorem test_decode_thdEnc : decode ⟨0b00010110#8, 0x03E8#16, 0x8000#16⟩ = .ok (.thdEnc 1 1000 0x8000) := by decide
theorem test_decode_thdDec : decode ⟨0b01110111#8, 0x1234#16, 0x0000#16⟩ = .ok (.thdDec 7 0x1234) := by decide
theorem test_decode_thdRCmd : decode ⟨0b00111000#8, 0x0000#16, 0x0000#16⟩ = .ok (.thdRCmd 3) := by decide
theorem test_decode_bit7_over_setPm : decode ⟨0b10000010#8, 0#16, 0#16⟩ = .error .reservedBitSet := by decide
theorem test_decode_op_0 : decode ⟨0b00000000#8, 0#16, 0#16⟩ = .error .reservedOp := by decide
theorem test_decode_op_F : decode ⟨0b00001111#8, 0#16, 0#16⟩ = .error .reservedOp := by decide
theorem test_table_word_thdEnc : decodeTableWord 40 0x00FA01F406 = some (.thdEnc 0 500 250) := by decide

/-! ### One step each: spec/95_test_vectors.md -/

/-- V-C5. -/
theorem test_measCmd_mpm_cs : nextIs (exec .measCmd (start true .mpm)) (fun t => t.cmd = 0x2C0D#16 && t.cmdValid) = true := by
  decide

/-- V-C8, through the step. -/
theorem test_measCmd_junk : nextIs (step (withEdges [ask 0x71 0xFFFF 0xFFFF])) (fun t =>
    t.cmd = 0x2400#16 && t.cmdValid && t.rspValid && t.status = 0#16) = true := by
  decide

/-- V-C10. -/
theorem test_setPm_1 : nextIs (exec (.setPm 1) (start false .hpm)) (fun t => t.activeMode = .mpm && !t.cmdValid) = true := by
  decide

/-- V-C12. -/
theorem test_setPm_3 : nextIs (exec (.setPm 3) (start false .lpm)) (fun t => t.activeMode = .hpm) = true := by decide

/-- V-C14. -/
theorem test_enLpm_0 : nextIs (exec (.enLpm 0) (start false .lpm)) (fun t => t.activeMode = .hpm) = true := by decide

/-- V-C16. -/
theorem test_enLpm_8000 : nextIs (exec (.enLpm 0x8000) (start false .hpm)) (fun t => t.activeMode = .lpm) = true := by decide

/-- V-C20. -/
theorem test_fixCmd_2 : nextIs (exec (.fixCmd 2) State.reset) (fun t => t.cmd = 0x3780#16 && t.cmdValid) = true := by decide

/-- V-C21. -/
theorem test_fixCmd_3 : nextIs (exec (.fixCmd 3) { State.reset with cmd := 0x3041 }) (fun t =>
    t.status = 0xFFFC#16 && !t.cmdValid && t.cmd = 0x3041#16) = true := by
  decide

/-- V-S2. -/
theorem test_conv_FFFF : nextIs (exec (.conv 0xFFFF 0xFFFF) State.reset) (fun t =>
    t.r0 = 0x0001FBCD#32 && t.r1 = 0x0001869E#32) = true := by
  decide

/-- V-S8. -/
theorem test_conv_last_negative : nextIs (exec (.conv 0x41D4 0x1234) State.reset) (fun t =>
    t.r0 = 0xFFFFFFFF#32 && t.r1 = 0x00001BC6#32) = true := by
  decide

/-- V-T4: a tie, rounded up, and a negative temperature. -/
theorem test_thdEnc_tie : nextIs (exec (.thdEnc 3 100 (BitVec.ofInt 16 (-100))) State.reset) (fun t =>
    t.r0 = 0x00001866#32 && t.cmd = 0x6100#16 && t.cmdValid) = true := by
  decide

/-- V-T8: both inputs saturate. -/
theorem test_thdEnc_saturates : nextIs (exec (.thdEnc 0 2000 (BitVec.ofInt 16 (-1000))) State.reset) (fun t =>
    t.r0 = 0x0000FE00#32 && t.draws = 0) = true := by
  decide

/-- V-D9. -/
theorem test_thdDec_1234 : nextIs (exec (.thdDec 0 0x1234) State.reset) (fun t =>
    t.r0 = 70#32 && t.r1 = 0xFFFFFEEF#32 && !t.cmdValid) = true := by
  decide

/-- V-D11: the registers are not written. -/
theorem test_thdDec_sel_4 : nextIs (exec (.thdDec 4 0x80CC) { State.reset with r0 := 5, r1 := 6 }) (fun t =>
    t.status = 0xFFFC#16 && t.r0 = 5#32 && t.r1 = 6#32) = true := by
  decide

/-- V-R3. -/
theorem test_thdRCmd_2 : nextIs (exec (.thdRCmd 2) State.reset) (fun t => t.cmd = 0xE109#16 && t.cmdValid) = true := by decide

/-- V-R5. -/
theorem test_thdRCmd_4 : nextIs (exec (.thdRCmd 4) State.reset) (fun t => t.status = 0xFFFC#16 && t.cmd = 0#16) = true := by
  decide

/-- V-X4: bit 7 set over SETPM. -/
theorem test_reserved_over_setPm : nextIs (step (withEdges [ask 0x82 0 0])) (fun t =>
    t.status = 0xFFFC#16 && !t.cmdValid && t.rspValid && t.activeMode = .hpm) = true := by
  decide

/-- P5, step 4: a request under a reset is discarded. -/
theorem test_reset_wins : nextIs (step { start false .mpm with cmd := 0x240B, inputs := [⟨true, true, 0x03, 1, 0⟩] }) (fun t =>
    t.activeMode = .hpm && t.cmd = 0#16 && !t.rspValid) = true := by
  decide

/-- P2, steps 1 and 4, and P1, step 3, as R59 writes them. -/
theorem test_assemble : (assemble "THDENC HC, 1000, -32768".toList).map listing = some "16 03E8 8000".toList ∧
    (assemble "THDENC HC, 800, 600 ; alert".toList).map listing = some "16 0320 0258".toList ∧
    (assemble "CONV 0x6666, 0x8000".toList).map listing = some "05 6666 8000".toList := by
  decide

theorem test_assemble_refuses : assemble "SETPM 65536".toList = none ∧ assemble "FIXCMD 8".toList = none ∧
    assemble "THDENC HS, 0, 32768".toList = none ∧ assemble "CONV 1".toList = none := by
  decide

/-! ### Witnesses: for each statement with hypotheses, values that meet them together -/

theorem witness_ResetEdge : (withEdges [⟨true, true, 0x03, 1, 0⟩]).inputs = ⟨true, true, 0x03, 1, 0⟩ :: [] := rfl

theorem witness_StepRunsTheDecodedOperation :
    (withEdges [ask 0x02 1 0]).inputs = ask 0x02 1 0 :: [] ∧ (ask 0x02 1 0).rst = false ∧ (ask 0x02 1 0).reqValid = true ∧
    decode ⟨(ask 0x02 1 0).ctrl, (ask 0x02 1 0).a, (ask 0x02 1 0).b⟩ = .ok (.setPm 1) := by
  decide

theorem witness_StepRunsTheFetchWord : decodeTableWord 8 0x24 = some (.fixCmd 2) := by decide

/-- Each of the three clauses at its boundary values. -/
theorem witness_ReservedControlWord : ∀ c ∈ ([0x80, 0xF1, 0x00, 0x70, 0x09, 0x7F] : List CtrlWord),
    (ask c 0 0).rst = false ∧ (ask c 0 0).reqValid = true ∧ (c.getLsbD 7 = true ∨ c.extractLsb' 0 4 = 0x0 ∨
      0x9 ≤ (c.extractLsb' 0 4).toNat) := by
  decide

theorem witness_IdleEdge : (withEdges [⟨false, false, 0x02, 0, 0⟩]).inputs = ⟨false, false, 0x02, 0, 0⟩ :: [] := rfl

theorem witness_EndedList : State.reset.inputs = [] := rfl

theorem witness_ResultsHold :
    (withEdges [ask 0x01 0 0, idleInput, idleInput]).inputs = ask 0x01 0 0 :: idleInput :: ([idleInput] ++ []) ∧
    (ask 0x01 0 0).rst = false ∧ (ask 0x01 0 0).reqValid = true ∧ IsIdle idleInput ∧ ∀ x ∈ [idleInput], IsIdle x := by
  decide

theorem witness_ParametersNeverChange :
    Host.Core.run Sys2Proof.core 1 State.reset = .next { State.reset with rspValid := false } := rfl

theorem witness_FixCmd_undefined : 3 ≤ (3 : Sel).toNat ∧ 3 ≤ (7 : Sel).toNat := by decide

/-- Both clauses, at the operands where the selected mode changes, with a request that leaves the mode between. -/
theorem witness_SelectedMode : (∀ x ∈ [idleInput, ask 0x01 0 0, ask 0x05 1 2], x.rst = false ∧
      (x.reqValid = true → decode x.request = .ok .measCmd ∨ decode x.request = .ok (.conv 1 2))) ∧
    Accepts (ask 0x01 0 0) .measCmd ∧
    Accepts (ask 0x02 0 0) (.setPm 0) ∧ Accepts (ask 0x02 1 0) (.setPm 1) ∧ Accepts (ask 0x02 2 0) (.setPm 2) ∧
    Accepts (ask 0x02 0xFFFF 0) (.setPm 0xFFFF) ∧ Accepts (ask 0x03 0 0) (.enLpm 0) ∧ Accepts (ask 0x03 1 0) (.enLpm 1) := by
  refine ⟨?_, ?_, ?_, ?_, ?_, ?_, ?_, ?_⟩ <;> decide

theorem witness_LeavesMode : LeavesMode (ask 0x05 1 2) ∧ LeavesMode idleInput := by
  have h : decode (ask 0x05 1 2).request = .ok (.conv 1 2) := by decide
  refine ⟨⟨rfl, fun _ a => ?_⟩, ⟨rfl, fun hv => by cases hv⟩⟩
  rw [h]
  exact ⟨by simp, by simp⟩

theorem witness_default_table : CmdTable.default.Valid := by decide

theorem witness_MeasCommandTells : (start true .lpm).config.cmdTable = (start true .lpm).config.cmdTable ∧
    exec .measCmd (start true .lpm) = .next ((start true .lpm).succeedWithCommand 0x2C10) := ⟨rfl, rfl⟩

theorem witness_AlertCommands : (2 : Sel).toNat ≤ 3 ∧
    exec (.thdRCmd 2) State.reset = .next (State.reset.succeedWithCommand 0xE109) := ⟨by decide, rfl⟩

theorem witness_alert_selector_bounds : (3 : Sel).toNat ≤ 3 ∧ (0 : Sel).toNat ≤ 3 ∧ 4 ≤ (4 : Sel).toNat ∧ 4 ≤ (7 : Sel).toNat := by
  decide

theorem witness_saturate : State.reset.config.thdRangePolicy = .saturate ∧ (0 : Sel).toNat ≤ 3 := by decide

/-- The bounds of the ranges, in range and just outside. -/
theorem witness_ranges : (1000 : Word).toNat ≤ 1000 ∧ 1000 < (1001 : Word).toNat ∧ -450 ≤ (BitVec.ofInt 16 (-450) : Word).toInt ∧
    (BitVec.ofInt 16 (-450) : Word).toInt ≤ 1300 ∧ (1300 : Word).toInt ≤ 1300 ∧ (BitVec.ofInt 16 (-451) : Word).toInt < -450 ∧
    1300 < (1301 : Word).toInt := by
  decide

/-- Every clause of the draws' statement: at 1000 and 1300 nothing is drawn, at 1001 or -451 or 1301 the counter moves on. -/
theorem witness_draws :
    nextIs (exec (.thdEnc 0 1000 1300) startUnspecified) (fun t => t.r0 = 0xFFFF#32 && t.draws = 0) = true ∧
    nextIs (exec (.thdEnc 0 1001 0) startUnspecified) (fun t => t.draws = 1 && t.cmdValid) = true ∧
    nextIs (exec (.thdEnc 0 0 (BitVec.ofInt 16 (-451))) startUnspecified) (fun t => t.draws = 1) = true ∧
    nextIs (exec (.thdEnc 0 0 1301) startUnspecified) (fun t => t.draws = 1) = true := by
  decide

theorem witness_monotone_inputs : (31 : Word).toNat ≤ (1000 : Word).toNat ∧
    -450 ≤ (BitVec.ofInt 16 (-440) : Word).toInt ∧ (BitVec.ofInt 16 (-440) : Word).toInt ≤ (1300 : Word).toInt ∧
    exec (.thdEnc 0 1000 1300) State.reset = .next ((State.reset.setR0 0xFFFF).succeedWithCommand 0x611D) := by
  refine ⟨by decide, by decide, by decide, rfl⟩

/-- The inputs of each clause of R111 (a), (b) and (c) are in range, the extremes' inputs among them. -/
theorem witness_RoundTripLaws : (31 ≤ 1000 ∧ 0 ≤ 1000 ∧ 0 ≤ 31) ∧
    ((-450 : Int) ≤ -440 ∧ (-440 : Int) ≤ 1300 ∧ (-450 : Int) ≤ -450) ∧ (0 < 128 ∧ 511 < 512) := by
  decide

/-- R111 (d): the one temperature field that comes back as itself, and one that does not. -/
theorem test_reencode : (reencode .saturate 0 0x0000).toNat % 512 = 0 ∧ (reencode .saturate 0 0x01FF).toNat % 512 = 510 := by
  decide

/-- R111 (a) and (b): the worst cases of the round trip occur, h = 31 and t = -440. -/
theorem test_round_trip_worst :
    nextIs (exec (.thdEnc 0 31 (BitVec.ofInt 16 (-440))) State.reset) (fun t =>
      nextIs (exec (.thdDec 0 (t.r0.setWidth 16)) t) (fun u => u.r0.toInt = 23 && u.r1.toInt = -444)) = true := by
  decide

theorem witness_invariant : Inv State.reset ∧ step State.reset = .next { State.reset with rspValid := false } :=
  ⟨by decide, rfl⟩

theorem witness_OnlyModeOperations : (withEdges [ask 0x02 0 0]).inputs = ask 0x02 0 0 :: [] ∧
    nextIs (step (withEdges [ask 0x02 0 0])) (fun t => t.activeMode ≠ (withEdges [ask 0x02 0 0]).activeMode) = true := by
  decide

theorem witness_OnlyMeasCmdReadsTheMode : Instr.thdRCmd 0 ≠ .measCmd := by decide

/-- Each clause: R0 and R1 change. -/
theorem witness_OnlyConversions : nextIs (step (withEdges [ask 0x05 1 1])) (fun t =>
    t.r0 ≠ (withEdges [ask 0x05 1 1]).r0 && t.r1 ≠ (withEdges [ask 0x05 1 1]).r1) = true ∧ (ask 0x05 1 1).rst = false := by
  decide

/-- Each cause of R133 at its boundary values, and its neighbours that have none. -/
theorem witness_causes : (∀ c ∈ ([0x80, 0x00, 0x09, 0x34, 0x74, 0x46, 0x47, 0x48, 0x76] : List CtrlWord),
      RawInvalid c ∧ (ask c 0 0).rst = false ∧ (ask c 0 0).reqValid = true) ∧
    ∀ c ∈ ([0x71, 0x72, 0x73, 0x24, 0x75, 0x36, 0x37, 0x38] : List CtrlWord), ¬ RawInvalid c := by
  decide

theorem witness_FailedRequest : nextIs (step (withEdges [ask 0x46 500 250])) (fun t => t.status = 0xFFFC#16) = true := by
  decide

/-- Under UNSPECIFIED: an operation that never draws, THDENC at the ends of both ranges, THDENC with an undefined selector; and one
that draws. -/
theorem witness_Repeated : drawsNothing .unspecified (.setPm 1) = true ∧
    drawsNothing .unspecified (.thdEnc 0 1000 1300) = true ∧
    drawsNothing .unspecified (.thdEnc 3 0 (BitVec.ofInt 16 (-450))) = true ∧
    drawsNothing .unspecified (.thdEnc 4 1001 0) = true ∧ drawsNothing .saturate (.thdEnc 0 1001 1301) = true ∧
    drawsNothing .unspecified (.thdEnc 0 1001 1300) = false := by
  decide

/-- The 32-bit clamps at and beyond their bounds (R102, R108: `h = 65535` behaves as 1000 and `t = -32768` as -450). -/
theorem test_clamp32 : clampH32 1000 = 1000#32 ∧ clampH32 65535 = 1000#32 ∧ clampT32 0x8000 = -450#32 ∧
    clampT32 (BitVec.ofInt 16 (-450)) = -450#32 ∧ clampT32 (BitVec.ofInt 16 (-1)) = -1#32 ∧ clampT32 1301 = 1300#32 := by
  decide

/-- Under UNSPECIFIED each clause of the 32-bit statement applies without the other. -/
theorem witness_32Bit : startUnspecified.config.thdRangePolicy = .unspecified ∧
    ((0 : Word).toNat ≤ 1000 ∧ 1300 < (1301 : Word).toInt) ∧
    (1000 < (1001 : Word).toNat ∧ -450 ≤ (0 : Word).toInt ∧ (0 : Word).toInt ≤ 1300) := by
  decide

/-- Samples that differ in every way the block ignores: under a reset, in an idle cycle, in unread fields, in a reserved word. -/
theorem witness_IgnoredInputs : List.Forall₂ SameSample
    [⟨true, true, 0x02, 0, 0⟩, ⟨false, false, 0x02, 0, 0⟩, ask 0x71 1 2, ask 0x32 1 5, ask 0x24 1 1, ask 0x17 7 0, ask 0x80 0 0]
    [⟨true, false, 0x05, 9, 9⟩, ⟨false, false, 0x05, 9, 9⟩, ask 0x01 0 0, ask 0x02 1 0, ask 0x24 0 0, ask 0x17 7 3, ask 0x0F 1 2] := by
  decide

theorem witness_ShiftForm : 65535 ≤ 65535 := by decide

end Sys2Proof.Tests
end

section
/-! PROOFS. The reset values of the registers (spec/10_state.md R29). -/

namespace Sys2Proof.Proofs
open Sys2Proof.Machine

/-- Settles O7: `State.reset` is a record of constants, so each register's value is read off its field; the order is that of R29's
table: mode, results, command and its valid bit, status, response. -/
theorem resetRegisterValues : Obligations.ResetRegisterValues :=
  ⟨rfl, rfl, rfl, rfl, rfl, rfl, rfl⟩

end Sys2Proof.Proofs
end

section
/-! PROOFS. The request decoder, its inverse and the reserved control word (spec/30_encoding.md R50 to R55, R59, R60). -/

namespace Sys2Proof.Proofs
open Sys2Proof.Machine

/-! ### The fields of a control word, as numbers -/

theorem rawOp_ctrlWord (sel : Sel) (op : BitVec 4) : rawOp (ctrlWord sel op) = op.toNat := by
  rw [← ctrlOp_toNat, ctrlOp_ctrlWord]

theorem rawSel_ctrlWord (sel : Sel) (op : BitVec 4) : rawSel (ctrlWord sel op) = sel.toNat := by
  rw [← ctrlSel_toNat, ctrlSel_ctrlWord]

theorem ctrlWord_lt (sel : Sel) (op : BitVec 4) : (ctrlWord sel op).toNat < 128 := by
  rw [← Nat.not_le, ← ctrlRsv_iff, ctrlRsv_ctrlWord]
  exact Bool.false_ne_true

theorem ctrlSel_of_rawSel {c : CtrlWord} {sel : Sel} (h : rawSel c = sel.toNat) : ctrlSel c = sel :=
  BitVec.eq_of_toNat_eq ((ctrlSel_toNat c).trans h)

/-! ### Which request decodes to which operation -/

/-- Settles O2, both ways by `decode_cases`: the row a request decoded by gives its fields, and the operation code read by an
operation leaves one row, whose operands are then the operation's. -/
theorem decodeReadsExactlyItsFields : Obligations.DecodeReadsExactlyItsFields := by
  intro r i
  constructor
  · intro h
    obtain ⟨-, e, he⟩ | ⟨hres, hcases⟩ := decode_cases r
    · cases he.symm.trans h
    · refine ⟨Nat.not_le.mp fun hbit => hres (.inl hbit), ?_⟩
      rcases hcases with ⟨hop, hd⟩ | ⟨hop, hd⟩ | ⟨hop, hd⟩ | ⟨hop, hd⟩ | ⟨hop, hd⟩ | ⟨hop, hd⟩ | ⟨hop, hd⟩ | ⟨hop, hd⟩ <;>
        cases hd.symm.trans h <;> simp [hop, ctrlSel_toNat]
  · rintro ⟨hlt, h⟩
    have hbit : ¬ 128 ≤ r.ctrl.toNat := Nat.not_le.mpr hlt
    cases i with
    | measCmd => simpa [RawReserved, hbit, h] using decode_cases r
    | setPm a =>
      obtain ⟨hop, rfl⟩ := h
      simpa [RawReserved, hbit, hop] using decode_cases r
    | enLpm a =>
      obtain ⟨hop, rfl⟩ := h
      simpa [RawReserved, hbit, hop] using decode_cases r
    | fixCmd sel =>
      obtain ⟨hop, hsel⟩ := h
      simpa [RawReserved, hbit, hop, ctrlSel_of_rawSel hsel] using decode_cases r
    | conv a b =>
      obtain ⟨hop, rfl, rfl⟩ := h
      simpa [RawReserved, hbit, hop] using decode_cases r
    | thdEnc sel a b =>
      obtain ⟨hop, hsel, rfl, rfl⟩ := h
      simpa [RawReserved, hbit, hop, ctrlSel_of_rawSel hsel] using decode_cases r
    | thdDec sel a =>
      obtain ⟨hop, hsel, rfl⟩ := h
      simpa [RawReserved, hbit, hop, ctrlSel_of_rawSel hsel] using decode_cases r
    | thdRCmd sel =>
      obtain ⟨hop, hsel⟩ := h
      simpa [RawReserved, hbit, hop, ctrlSel_of_rawSel hsel] using decode_cases r

/-- Settles O1. The request `encode` writes carries the operation's code, its selector and its operands in the fields the
decoder reads, so O2's criterion holds of it. -/
theorem decodeOfEncodeIsIdentity : Obligations.DecodeOfEncodeIsIdentity := by
  intro i
  rw [decodeReadsExactlyItsFields]
  cases i with
  | measCmd => exact ⟨ctrlWord_lt 0 1, rawOp_ctrlWord 0 1⟩
  | setPm a => exact ⟨ctrlWord_lt 0 2, rawOp_ctrlWord 0 2, rfl⟩
  | enLpm a => exact ⟨ctrlWord_lt 0 3, rawOp_ctrlWord 0 3, rfl⟩
  | fixCmd sel => exact ⟨ctrlWord_lt sel 4, rawOp_ctrlWord sel 4, rawSel_ctrlWord sel 4⟩
  | conv a b => exact ⟨ctrlWord_lt 0 5, rawOp_ctrlWord 0 5, rfl, rfl⟩
  | thdEnc sel a b => exact ⟨ctrlWord_lt sel 6, rawOp_ctrlWord sel 6, rawSel_ctrlWord sel 6, rfl, rfl⟩
  | thdDec sel a => exact ⟨ctrlWord_lt sel 7, rawOp_ctrlWord sel 7, rawSel_ctrlWord sel 7, rfl⟩
  | thdRCmd sel => exact ⟨ctrlWord_lt sel 8, rawOp_ctrlWord sel 8, rawSel_ctrlWord sel 8⟩

/-! ### A reserved control word -/

/-- `fail InvalidParams` written out, with `STATUS = -4` in 16 bits (R131). -/
theorem failInvalidParams_eq (s : State) :
    s.failInvalidParams = { s with status := 0xFFFC, cmdValid := false, rspValid := true } := rfl

/-- Settles O11. The step takes the sample, and an edge with a reserved control word performs `fail InvalidParams`. -/
theorem reservedControlWordOnlyReports : Obligations.ReservedControlWordOnlyReports := by
  intro s p rest hin hrst hreq hctrl
  rw [step_cons hin, clockEdge_reserved hrst hreq ((rawReserved_iff p.ctrl).mpr hctrl), failInvalidParams_eq]

/-! ### The pseudo-instructions -/

/-- Two lines that name the same operation assemble to the same request, that operation's. -/
theorem assemble_of_parseLine {line expansion : List Char} {i : Instr} (h : parseLine line = some i)
    (h' : parseLine expansion = some i) :
    assemble line = assemble expansion ∧ assemble line = some (encode i) := by
  simp [assemble, h, h']

/-- Settles O6. Each pseudo-instruction and its expansion name the same operation: FIXCMD with the selector, or SETPM with the
mode, of R60's table. -/
theorem pseudoInstructionsExpand : Obligations.PseudoInstructionsExpand :=
  ⟨assemble_of_parseLine (i := .fixCmd 0) (by decide) (by decide),
   assemble_of_parseLine (i := .fixCmd 1) (by decide) (by decide),
   assemble_of_parseLine (i := .fixCmd 2) (by decide) (by decide),
   assemble_of_parseLine (i := .setPm 0) (by decide) (by decide),
   assemble_of_parseLine (i := .setPm 1) (by decide) (by decide),
   assemble_of_parseLine (i := .setPm 2) (by decide) (by decide)⟩

end Sys2Proof.Proofs
end

section
/-! PROOFS. The command selector: MEASCMD, SETPM, ENLPM and FIXCMD (spec/40_command_select.md R73 to R77). -/

namespace Sys2Proof.Proofs
open Sys2Proof.Machine

/-! ### The two successful ends of a request, written out -/

/-- A success with the command word `w`, with `OK` as the word 0 (R11, R23, R26). -/
theorem succeedWithCommand_eq (w : Word) (s : State) :
    s.succeedWithCommand w = { s with cmd := w, cmdValid := true, status := 0x0000, rspValid := true } := rfl

/-- A success with no command word: `CMD` holds (R11, R23, R26). -/
theorem succeed_eq (s : State) :
    s.succeed = { s with cmdValid := false, status := 0x0000, rspValid := true } := rfl

/-! ### The measurement command and the mode -/

/-- `MeasCmd(cs, m)` as the bus-timing variant's choice among three words by the mode (R73). -/
theorem measCommand_eq (t : CmdTable) (cs : Bool) (m : Mode) :
    measCommand t cs m =
      if cs then (if m = .lpm then t.measLpmCs else if m = .mpm then t.measMpmCs else t.measHpmCs)
      else (if m = .lpm then t.measLpmNocs else if m = .mpm then t.measMpmNocs else t.measHpmNocs) := by
  cases cs <;> cases m <;> rfl

/-- Settles O18: MEASCMD succeeds with the command word of R73. -/
theorem measCmdSelectsTheActiveCommand : Obligations.MeasCmdSelectsTheActiveCommand := by
  intro s
  rw [exec_measCmd, measCommand_eq, succeedWithCommand_eq]

/-- Settles O19: SETPM writes the mode its operand names, by `modeOfCode_eq`, and succeeds without a command. -/
theorem setPmSelectsTheMode : Obligations.SetPmSelectsTheMode := by
  intro a s
  rw [exec_setPm, modeOfCode_eq, succeed_eq, State.setMode]

/-- Settles O20: ENLPM writes the mode its operand names, by `modeOfBool_eq`, and succeeds without a command. -/
theorem enLpmSelectsLowOrHighPower : Obligations.EnLpmSelectsLowOrHighPower := by
  intro a s
  rw [exec_enLpm, modeOfBool_eq, succeed_eq, State.setMode]

/-! ### The fixed commands -/

/-- FIXCMD whose selector names the word `w` changes the state as R77 says. -/
theorem exec_fixCmd_eq {sel : Sel} {s : State} {w : Word} (h : fixedCommand s.config.cmdTable sel = some w) :
    exec (.fixCmd sel) s = .next { s with cmd := w, cmdValid := true, status := 0x0000, rspValid := true } := by
  rw [exec_fixCmd_some h, succeedWithCommand_eq]

/-- Settles O21: the table names a word for each of the selectors 0, 1 and 2, and every other selector performs
`fail InvalidParams`. -/
theorem fixCmdSelectsTheFixedCommand : Obligations.FixCmdSelectsTheFixedCommand := by
  intro s
  refine ⟨exec_fixCmd_eq rfl, exec_fixCmd_eq rfl, exec_fixCmd_eq rfl, ?_⟩
  intro sel hsel
  rw [exec_fixCmd_fail hsel, failInvalidParams_eq]

end Sys2Proof.Proofs
end

section
/-! PROOFS. The scaler: CONV (spec/41_scaler.md R91, R92, R95). -/

namespace Sys2Proof.Proofs
open Sys2Proof.Machine

/-- The register word of a temperature: the shift form of R91, in two's complement. -/
theorem trunc32_decodeT (a : Word) :
    trunc32 (decodeT (u16 a)) = BitVec.ofInt 32 (((21875 * a.toNat) >>> 13 : Nat) - 45000 : Int) := rfl

/-- The register word of a humidity: the shift form of R92, which is a natural number. -/
theorem trunc32_decodeRH (b : Word) :
    trunc32 (decodeRH (u16 b)) = BitVec.ofNat 32 ((12500 * b.toNat) >>> 13) :=
  BitVec.ofInt_natCast 32 _

/-- Settles O26: CONV writes the two register words, R0 from A alone and R1 from B alone, and succeeds without a command. -/
theorem convWritesTemperatureAndHumidity : Obligations.ConvWritesTemperatureAndHumidity := by
  intro a b s
  rw [exec_conv, trunc32_decodeT, trunc32_decodeRH, succeed_eq, State.setR1, State.setR0]

end Sys2Proof.Proofs
end

section
/-! PROOFS. The threshold unit: THDENC under SATURATE, THDDEC and THDRCMD (spec/42_threshold.md R101 to R110). -/

namespace Sys2Proof.Proofs
open Sys2Proof.Machine

/-! ### The command of an alert selector -/

/-- THDRCMD with a defined selector succeeds with the selector's read command, looked up in R78's list. -/
theorem exec_thdRCmd_eq {sel : Sel} (h : sel.toNat ≤ 3) (s : State) :
    exec (.thdRCmd sel) s = .next { s with
      cmd := [s.config.cmdTable.alertRdHs, s.config.cmdTable.alertRdHc, s.config.cmdTable.alertRdLc,
              s.config.cmdTable.alertRdLs].getD sel.toNat 0
      cmdValid := true, status := 0x0000, rspValid := true } := by
  obtain ⟨x, hx⟩ := alertSel_of_le h
  rw [exec_thdRCmd_some hx, alertRdCommand_eq hx, succeedWithCommand_eq]

/-- Settles O36: a defined selector succeeds with its read command, every other one performs `fail InvalidParams`. -/
theorem thdRCmdSelectsTheReadCommand : Obligations.ThdRCmdSelectsTheReadCommand := by
  intro sel s
  refine ⟨fun h => exec_thdRCmd_eq h s, fun h => ?_⟩
  rw [exec_thdRCmd_fail h, failInvalidParams_eq]

/-! ### The decoded thresholds -/

/-- The two forms of R106 are one function: the odd divisor leaves no tie to round. -/
theorem roundHalfUp_65535 (n : Nat) : roundHalfUp n 65535 = (n + 32767) / 65535 := by
  unfold roundHalfUp; omega

/-- The register word of a decoded humidity, by the second form of R106. -/
theorem trunc32_thdDecH (w : Word) :
    trunc32 (thdDecH w) = BitVec.ofNat 32 ((1000 * (w &&& 0xFE00#16).toNat + 32767) / 65535) := by
  rw [thdDecH, roundHalfUp_65535, trunc32, BitVec.ofInt_natCast]

/-- The register word of a decoded temperature: the formula of R107, in two's complement. -/
theorem trunc32_thdDecT (w : Word) :
    trunc32 (thdDecT w) = BitVec.ofInt 32 ((((w &&& 0x01FF#16).toNat <<< 7) * 1750 / 65535 : Nat) - 450 : Int) := rfl

/-- Settles O34: a defined selector writes the two register words and succeeds without a command, every other one performs
`fail InvalidParams`. -/
theorem thdDecUnpacksTheLimitWord : Obligations.ThdDecUnpacksTheLimitWord := by
  intro sel a s
  constructor <;> intro h
  · rw [exec_thdDec_some h, trunc32_thdDecH, trunc32_thdDecT, succeed_eq, State.setR1, State.setR0]
  · rw [exec_thdDec_fail h, failInvalidParams_eq]

/-! ### The limit word by the mask form of R105 -/

/-- `and_humidityMask` for a fraction that is a number of 16 bits. -/
theorem nat_and_humidityMask {n : Nat} (h : n < 2 ^ 16) : n &&& 0xFE00 = n / 512 * 512 := by
  have hmask := and_humidityMask (BitVec.ofNatLT n h)
  rwa [BitVec.toNat_and, BitVec.toNat_ofNatLT] at hmask

/-- The mask form keeps the upper seven bits of the humidity fraction over the upper nine of the temperature fraction. -/
theorem limitFormula_eq {h : Nat} {t : Int} (hh : h ≤ 1000) (ht : t ≤ 1300) :
    limitFormula h t = thdEncH h / 512 * 512 + thdEncT t / 128 := by
  have hH : thdEncH h &&& 0xFE00 = thdEncH h / 512 * 512 := nat_and_humidityMask (Nat.lt_succ_of_le (thdEncH_le hh))
  have hT : thdEncT t / 128 < 2 ^ 9 := by
    have := thdEncT_le ht
    omega
  calc limitFormula h t
      = (thdEncH h &&& 0xFE00) ||| (thdEncT t >>> 7 &&& 2 ^ 9 - 1) := rfl
    _ = thdEncH h / 512 * 512 ||| thdEncT t / 128 := by
        rw [hH, Nat.and_two_pow_sub_one_eq_mod, Nat.shiftRight_eq_div_pow, Nat.mod_eq_of_lt hT]
    _ = thdEncH h / 512 * 512 + thdEncT t / 128 := by
        rw [← Nat.shiftLeft_eq (b := 9), Nat.shiftLeft_add_eq_or_of_lt hT]

/-- Where neither field is a draw, the limit word is the mask form of the conditioned inputs, under either policy. -/
theorem zext32_limitWord {p : ThdRangePolicy} {h h' : Nat} {t t' : Int} (n : Nat)
    (hc : conditionH p h = some h') (hh : h' ≤ 1000) (tc : conditionT p t = some t') (ht : t' ≤ 1300) :
    zext32 (limitWord p n h t) = BitVec.ofNat 32 (limitFormula h' t') := by
  rw [limitFormula_eq hh ht, ← fieldHB_toNat (n := n) hc hh, ← fieldTB_toNat (n := n) tc ht, ← limitWord_toNat,
    BitVec.ofNat_toNat, zext32]

/-- THDENC that draws nothing leaves its zero-extended limit word in R0 and the selector's write command, looked up in R78's list, in
CMD. -/
theorem exec_thdEnc_eq {sel : Sel} {a b : Word} {s : State} (h : sel.toNat ≤ 3)
    (hd : limitDraws s.config.thdRangePolicy (u16 a) (s16 b) = 0) :
    exec (.thdEnc sel a b) s = .next { s with
      r0 := zext32 (limitWord s.config.thdRangePolicy s.draws (u16 a) (s16 b))
      cmd := [s.config.cmdTable.alertWrHs, s.config.cmdTable.alertWrHc, s.config.cmdTable.alertWrLc,
              s.config.cmdTable.alertWrLs].getD sel.toNat 0
      cmdValid := true, status := 0x0000, rspValid := true } := by
  obtain ⟨x, hx⟩ := alertSel_of_le h
  rw [exec_thdEnc_some hx, alertWrCommand_eq hx, hd, succeedWithCommand_eq, State.setR0, State.advanceDraws, Nat.add_zero]

/-- Settles O31: under SATURATE both inputs are conditioned into range, so no field is a draw and the limit word is the mask form of
the clamped inputs. -/
theorem thdEncSaturatesAndPacks : Obligations.ThdEncSaturatesAndPacks := by
  intro sel a b s hsel hp
  have hword : zext32 (limitWord .saturate s.draws (u16 a) (s16 b)) =
      BitVec.ofNat 32 (limitFormula (min a.toNat 1000) (clamp b.toInt (-450) 1300)) :=
    zext32_limitWord s.draws (conditionH_saturate _) (Nat.min_le_right _ _) (conditionT_saturate _) (clamp_range _).2
  rw [exec_thdEnc_eq hsel (limitDraws_eq_zero (.inl hp)), hp, hword, clamp]

/-! ### The selector check -/

/-- THDENC with a defined selector completes with STATUS OK, whatever its inputs and the policy. -/
theorem exec_thdEnc_ok {sel : Sel} (h : sel.toNat ≤ 3) (a b : Word) (s : State) :
    ∃ t, exec (.thdEnc sel a b) s = .next t ∧ t.status = 0x0000 := by
  obtain ⟨x, hx⟩ := alertSel_of_le h
  exact ⟨_, exec_thdEnc_some hx a b s, succeedWithCommand_status _ _⟩

/-- Settles O30: the three operations fail alike for an undefined selector, and each succeeds for a defined one. -/
theorem alertSelectorDecidesSuccess : Obligations.AlertSelectorDecidesSuccess := by
  intro sel a b s
  constructor <;> intro h
  · rw [exec_thdEnc_fail h, exec_thdDec_fail h, exec_thdRCmd_fail h, failInvalidParams_eq]
    exact ⟨rfl, rfl, rfl⟩
  · obtain ⟨t, ht, hok⟩ := exec_thdEnc_ok h a b s
    exact ⟨t, _, _, ht, exec_thdDec_some h a s, exec_thdRCmd_eq h s, hok, succeed_status _, rfl⟩

end Sys2Proof.Proofs
end

section
/-! PROOFS. INVALID_PARAMS: its causes and what a failed request leaves unchanged (spec/60_exceptions.md R131 to R133). -/

namespace Sys2Proof.Proofs
open Sys2Proof.Machine

/-! ### How an accepted request ends -/

/-- The causes of R133 other than a reserved word are the undefined selectors of R53. -/
theorem rawInvalid_iff_not_wellFormed {r : Request} {i : Instr} (h : decode r = .ok i) :
    RawInvalid r.ctrl ↔ i.wellFormed = false := by
  obtain ⟨hlt, hfields⟩ := (decodeReadsExactlyItsFields r i).mp h
  have hbit : ¬ 128 ≤ r.ctrl.toNat := Nat.not_le.mpr hlt
  unfold RawInvalid RawReserved
  cases i with
  | measCmd | setPm | enLpm | conv => simp [Instr.wellFormed, hbit, hfields]
  | fixCmd sel => simp [Instr.wellFormed, fixSelDefined, hbit, hfields, Nat.succ_le_iff]
  | thdEnc sel | thdDec sel | thdRCmd sel => simp [Instr.wellFormed, alertSelDefined, hbit, hfields, Nat.succ_le_iff]

/-- An accepted request fails where its control word has a cause, reserved or not; otherwise it performs an operation with no
undefined selector. -/
theorem clockEdge_request_cases {p : PortInput} (hrst : p.rst = false) (hreq : p.reqValid = true) (s : State) :
    (RawInvalid p.ctrl ∧ clockEdge p s = .next s.failInvalidParams) ∨
    (¬ RawInvalid p.ctrl ∧ ∃ i, i.wellFormed = true ∧ clockEdge p s = exec i s) := by
  obtain ⟨hrst', -⟩ | ⟨⟨-, hidle⟩, -⟩ | ⟨-, -, hres, hfail⟩ | ⟨-, i, ⟨-, -, hdec⟩, hexec⟩ := clockEdge_cases p s
  · exact absurd hrst' (by simp [hrst])
  · exact absurd hidle (by simp [hreq])
  · exact .inl ⟨.inl hres, hfail⟩
  · have hcause : RawInvalid p.ctrl ↔ i.wellFormed = false := rawInvalid_iff_not_wellFormed hdec
    cases hwf : i.wellFormed with
    | false => exact .inl ⟨hcause.mpr hwf, hexec.trans (exec_illFormed hwf s)⟩
    | true => exact .inr ⟨by simp [hcause, hwf], i, hwf, hexec⟩

/-! ### The status of an accepted request -/

/-- An operation with no undefined selector reports `OK`. -/
theorem exec_status_ok {i : Instr} {s t : State} (hwf : i.wellFormed = true) (h : exec i s = .next t) :
    t.status = 0x0000 := by
  rcases exec_cases i s with ⟨hill, -⟩ | ⟨-, he⟩ | ⟨_, -, he⟩ | ⟨_, -, he⟩ | ⟨_, _, -, -, -, -, he⟩ | ⟨_, _, -, he⟩ |
    ⟨_, _, _, _, -, -, -, he⟩ | ⟨_, _, -, -, he⟩ | ⟨_, _, -, -, -, he⟩
  · exact absurd hill (by simp [hwf])
  all_goals cases he.symm.trans h; rfl

/-- Settles O47: with a cause the request fails, without one its operation reports OK, and the two status words differ. -/
theorem invalidParamsHasTheseCauses : Obligations.InvalidParamsHasTheseCauses := by
  intro s t p rest hin hrst hreq hstep
  rw [step_cons hin] at hstep
  obtain ⟨hcause, hfail⟩ | ⟨hnone, i, hwf, hexec⟩ := clockEdge_request_cases hrst hreq { s with inputs := rest }
  · cases hfail.symm.trans hstep
    simp [hcause]
  · simp [hnone, exec_status_ok hwf (hexec.symm.trans hstep)]

/-! ### What a failed request leaves and shows -/

/-- After `fail InvalidParams` the ports offer the host no command and no results (R132). -/
theorem failInvalidParams_withholds (s : State) :
    s.failInvalidParams.outputs.issuable = none ∧ s.failInvalidParams.outputs.results = none := by
  simp [PortOutput.issuable, PortOutput.results]

/-- Settles O48: the step takes the sample and performs `fail InvalidParams`, which writes the three status outputs alone. -/
theorem failedRequestChangesNothingElse : Obligations.FailedRequestChangesNothingElse := by
  intro s p rest hin hrst hreq hcause
  obtain ⟨-, hfail⟩ | ⟨hnone, -⟩ := clockEdge_request_cases hrst hreq { s with inputs := rest }
  · exact ⟨_, (step_cons hin).trans hfail, rfl, failInvalidParams_withholds _⟩
  · exact absurd hcause hnone

end Sys2Proof.Proofs
end

section
/-! PROOFS. How long the outputs of an accepted request show (spec/70_reset_and_hazards.md R153, R154). -/

namespace Sys2Proof.Proofs
open Sys2Proof.Machine

/-- An accepted request, failed or not, answers with `RSP_VALID = 1` and leaves the host's later samples to come (R26, R153). -/
theorem step_request {s : State} {p : PortInput} {rest : List PortInput} (hin : s.inputs = p :: rest)
    (hrst : p.rst = false) (hreq : p.reqValid = true) :
    ∃ t, step s = .next t ∧ t.rspValid = true ∧ t.inputs = rest := by
  rw [step_cons hin]
  obtain ⟨-, hfail⟩ | ⟨-, i, -, hexec⟩ := clockEdge_request_cases hrst hreq { s with inputs := rest }
  · exact ⟨_, hfail, rfl, rfl⟩
  · obtain ⟨t, ht, hrsp, -, hrest⟩ := exec_next i { s with inputs := rest }
    exact ⟨t, hexec.trans ht, hrsp, hrest⟩

/-- An idle edge holds every register but `RSP_VALID` (R153). -/
theorem step_idle {s : State} {q : PortInput} {rest : List PortInput} (hin : s.inputs = q :: rest) (hq : IsIdle q) :
    step s = .next { s with rspValid := false, inputs := rest } := by
  rw [step_cons hin, clockEdge_idle hq, State.idle]

/-- One or more idle edges together do what a single one does: the first clears `RSP_VALID`, and the later ones find it clear. -/
theorem run_idle {s : State} {q : PortInput} {idle rest : List PortInput} (hin : s.inputs = q :: (idle ++ rest))
    (hq : IsIdle q) (hidle : ∀ x ∈ idle, IsIdle x) :
    Host.Core.run Sys2Proof.core (idle.length + 1) s = .next { s with rspValid := false, inputs := rest } := by
  induction idle generalizing s q with
  | nil => exact run_succ (step_idle hin hq)
  | cons x xs ih =>
    obtain ⟨hx, hxs⟩ := List.forall_mem_cons.mp hidle
    exact (run_succ (step_idle hin hq)).trans (ih rfl hx hxs)

/-- Settles O16: the request's edge sets `RSP_VALID`, and the idle edges after it clear that register and no other. -/
theorem resultsHoldOverIdleEdges : Obligations.ResultsHoldOverIdleEdges := by
  intro s p q idle rest hin hrst hreq hq hidle
  obtain ⟨t, hstep, hrsp, hrest⟩ := step_request hin hrst hreq
  exact ⟨t, hstep, hrsp, run_idle hrest hq hidle⟩

end Sys2Proof.Proofs
end

section
/-! PROOFS. The ranges of the results and the invariant of the registers (spec/10_state.md section 3, spec/41_scaler.md R94,
spec/42_threshold.md R105 to R107). -/

namespace Sys2Proof.Proofs
open Sys2Proof.Machine

/-! ### The integers the two conversion units compute -/

/-- The temperature of R91 by a floor division. -/
theorem decodeT_eq (t : Nat) : decodeT t = (21875 * t / 8192 : Nat) - (45000 : Int) := by
  rw [decodeT, Nat.shiftRight_eq_div_pow]

/-- The humidity of R92 by a floor division. -/
theorem decodeRH_eq (h : Nat) : decodeRH h = 12500 * h / 8192 := by
  rw [decodeRH, Nat.shiftRight_eq_div_pow]

theorem decodeT_range (a : Word) : -45000 ≤ decodeT (u16 a) ∧ decodeT (u16 a) ≤ 129997 := by
  have ha : u16 a < 65536 := a.isLt
  rw [decodeT_eq]
  omega

theorem decodeRH_le (b : Word) : decodeRH (u16 b) ≤ 99998 := by
  have hb : u16 b < 65536 := b.isLt
  rw [decodeRH_eq]
  omega

theorem thdDecH_le (w : Word) : thdDecH w ≤ 992 := by
  rw [thdDecH_eq]
  omega

theorem thdDecT_range (w : Word) : -450 ≤ thdDecT w ∧ thdDecT w ≤ 1296 := by
  rw [thdDecT_eq]
  omega

/-! ### The same integers in the registers -/

theorem trunc32_decodeT_toInt (a : Word) : (trunc32 (decodeT (u16 a))).toInt = decodeT (u16 a) := by
  obtain ⟨hlo, hhi⟩ := decodeT_range a
  exact trunc32_toInt (by omega) (by omega)

theorem trunc32_decodeRH_toInt (b : Word) : (trunc32 (decodeRH (u16 b))).toInt = decodeRH (u16 b) := by
  have := decodeRH_le b
  exact trunc32_toInt (by omega) (by omega)

theorem trunc32_thdDecH_toInt (w : Word) : (trunc32 (thdDecH w)).toInt = thdDecH w := by
  have := thdDecH_le w
  exact trunc32_toInt (by omega) (by omega)

theorem trunc32_thdDecT_toInt (w : Word) : (trunc32 (thdDecT w)).toInt = thdDecT w := by
  obtain ⟨hlo, hhi⟩ := thdDecT_range w
  exact trunc32_toInt (by omega) (by omega)

theorem zext32_toInt (w : Word) : (zext32 w).toInt = w.toNat := by
  rw [BitVec.toInt_eq_toNat_of_lt (by rw [zext32_toNat]; omega), zext32_toNat]

/-! ### The command words an operation can leave -/

theorem measCommand_selectable (c : Config) (m : Mode) : measCommand c.cmdTable c.clockStretch m ∈ selectable c :=
  List.mem_append_left _ (List.mem_append_left _ (measCommand_mem c m))

theorem selectable_of_fixed {c : Config} {w : Word} (h : w ∈ c.cmdTable.fixed) : w ∈ selectable c :=
  List.mem_append_left _ (List.mem_append_right _ h)

theorem selectable_of_alert {c : Config} {w : Word} (h : w ∈ c.cmdTable.alert) : w ∈ selectable c :=
  List.mem_append_right _ h

theorem resultsInRange_reset : ResultsInRange State.reset := by decide

/-! ### Each update keeps the invariant -/

section Updates
variable {s : State} (hs : Inv s)
include hs

theorem inv_setR0 {v : DWord} (h : -45000 ≤ v.toInt ∧ v.toInt ≤ 129997) : Inv (s.setR0 v) := by
  obtain ⟨hstatus, hcmd, ⟨-, hr1⟩, htable⟩ := hs
  exact ⟨hstatus, hcmd, ⟨h, hr1⟩, htable⟩

theorem inv_setR1 {v : DWord} (h : -450 ≤ v.toInt ∧ v.toInt ≤ 99998) : Inv (s.setR1 v) := by
  obtain ⟨hstatus, hcmd, ⟨hr0, -⟩, htable⟩ := hs
  exact ⟨hstatus, hcmd, ⟨hr0, h⟩, htable⟩

theorem inv_setMode (m : Mode) : Inv (s.setMode m) := hs

theorem inv_advanceDraws (k : Nat) : Inv (s.advanceDraws k) := hs

theorem inv_takeInput : Inv s.takeInput := hs

theorem inv_idle : Inv s.idle := hs

theorem inv_succeedWithCommand {w : Word} (h : w ∈ selectable s.config) : Inv (s.succeedWithCommand w) := by
  obtain ⟨-, -, hresults, htable⟩ := hs
  exact ⟨⟨.inl rfl, fun _ => rfl⟩, ⟨.inr h, fun _ => h⟩, hresults, htable⟩

theorem inv_succeed : Inv s.succeed := by
  obtain ⟨-, ⟨hcmd, -⟩, hresults, htable⟩ := hs
  exact ⟨⟨.inl rfl, fun _ => rfl⟩, ⟨hcmd, nofun⟩, hresults, htable⟩

theorem inv_failInvalidParams : Inv s.failInvalidParams := by
  obtain ⟨-, ⟨hcmd, -⟩, hresults, htable⟩ := hs
  exact ⟨⟨.inr rfl, nofun⟩, ⟨hcmd, nofun⟩, hresults, htable⟩

/-- The reset values are legal under every valid command table. -/
theorem inv_resetRegisters : Inv s.resetRegisters := by
  obtain ⟨-, -, -, htable⟩ := hs
  exact ⟨⟨.inl rfl, nofun⟩, ⟨.inl rfl, nofun⟩, resultsInRange_reset, htable⟩

/-! ### Each operation and each edge keeps it -/

theorem exec_keeps_inv {i : Instr} {t : State} (h : exec i s = .next t) : Inv t := by
  rcases exec_cases i s with ⟨-, he⟩ | ⟨-, he⟩ | ⟨a, -, he⟩ | ⟨a, -, he⟩ | ⟨_, w, -, -, -, hw, he⟩ | ⟨a, b, -, he⟩ |
    ⟨_, x, a, b, -, -, -, he⟩ | ⟨_, w, -, -, he⟩ | ⟨_, x, -, -, -, he⟩ <;> cases he.symm.trans h
  · exact inv_failInvalidParams hs
  · exact inv_succeedWithCommand hs (measCommand_selectable _ _)
  · exact inv_succeed (inv_setMode hs _)
  · exact inv_succeed (inv_setMode hs _)
  · exact inv_succeedWithCommand hs (selectable_of_fixed hw)
  · have hT := decodeT_range a
    have hRH := decodeRH_le b
    rw [← trunc32_decodeT_toInt] at hT
    exact inv_succeed (inv_setR1 (inv_setR0 hs hT) (by rw [trunc32_decodeRH_toInt]; omega))
  · have hr0 (l : Word) : Inv (s.setR0 (zext32 l)) := inv_setR0 hs (by rw [zext32_toInt]; omega)
    exact inv_succeedWithCommand (inv_advanceDraws (hr0 _) _) (selectable_of_alert (alertWrCommand_mem _ x))
  · have hH := thdDecH_le w
    have hT := thdDecT_range w
    have hr0 := inv_setR0 hs (v := trunc32 (thdDecH w)) (by rw [trunc32_thdDecH_toInt]; omega)
    exact inv_succeed (inv_setR1 hr0 (by rw [trunc32_thdDecT_toInt]; omega))
  · exact inv_succeedWithCommand hs (selectable_of_alert (alertRdCommand_mem _ x))

theorem clockEdge_keeps_inv {p : PortInput} {t : State} (h : clockEdge p s = .next t) : Inv t := by
  obtain ⟨-, he⟩ | ⟨-, he⟩ | ⟨-, -, -, he⟩ | ⟨-, i, -, he⟩ := clockEdge_cases p s
  · cases he.symm.trans h
    exact inv_resetRegisters hs
  · cases he.symm.trans h
    exact inv_idle hs
  · cases he.symm.trans h
    exact inv_failInvalidParams hs
  · exact exec_keeps_inv hs (he.symm.trans h)

end Updates

/-- Settles O42: a step takes a sample, which the invariant does not read, and its edge keeps the invariant. -/
theorem everyStepKeepsTheInvariant : Obligations.EveryStepKeepsTheInvariant := by
  intro s t hs h
  exact clockEdge_keeps_inv (inv_takeInput hs) h

/-- Settles O41: the parameters at reset carry the default table, which meets R79, and the registers hold reset values. -/
theorem invariantHoldsAtReset : Obligations.InvariantHoldsAtReset :=
  ⟨⟨.inl rfl, nofun⟩, ⟨.inl rfl, nofun⟩, resultsInRange_reset, by decide⟩

end Sys2Proof.Proofs
end

section
/-! PROOFS. The control words that decode, and the requests the assembler writes (spec/30_encoding.md R50 to R59). -/

namespace Sys2Proof.Proofs
open Sys2Proof.Machine

/-- A request decodes to an operation exactly where its control word is not reserved (R55). -/
theorem decode_error_or_ok (r : Request) :
    (RawReserved r.ctrl ∧ ∃ e, decode r = .error e) ∨ (¬ RawReserved r.ctrl ∧ ∃ i, decode r = .ok i) := by
  obtain h | ⟨hres, hcases⟩ := decode_cases r
  · exact .inl h
  · refine .inr ⟨hres, ?_⟩
    rcases hcases with ⟨-, h⟩ | ⟨-, h⟩ | ⟨-, h⟩ | ⟨-, h⟩ | ⟨-, h⟩ | ⟨-, h⟩ | ⟨-, h⟩ | ⟨-, h⟩ <;> exact ⟨_, h⟩

/-- Half of the words with bit 7 clear are not reserved, and every word with bit 7 set is. -/
theorem countP_not_rawReserved :
    ((List.range 256).countP fun c => decide (¬ RawReserved (BitVec.ofNat 8 c))) = 64 := by
  rw [show 256 = 128 + 128 from rfl, List.range_add, List.countP_append, List.countP_map]
  have hclear : ((List.range 128).countP fun c => decide (¬ RawReserved (BitVec.ofNat 8 c))) = 64 := by decide
  have hset : ((List.range 128).countP
      ((fun c => decide (¬ RawReserved (BitVec.ofNat 8 c))) ∘ fun c => 128 + c)) = 0 := by decide
  rw [hclear, hset]

theorem countP_rawReserved : ((List.range 256).countP fun c => decide (RawReserved (BitVec.ofNat 8 c))) = 192 := by
  have hall := List.length_eq_countP_add_countP (fun c => decide (RawReserved (BitVec.ofNat 8 c))) (l := List.range 256)
  simp only [decide_eq_true_eq, countP_not_rawReserved, List.length_range] at hall
  omega

/-- Settles O3: whether a request decodes is read off its control word alone, so the words can be counted by R55's criterion. -/
theorem sixtyFourControlWordsDecode : Obligations.SixtyFourControlWordsDecode := by
  intro a b
  rw [← countP_not_rawReserved, ← countP_rawReserved]
  constructor <;> refine List.countP_congr fun c _ => ?_ <;>
    obtain ⟨hres, e, he⟩ | ⟨hres, i, hi⟩ := decode_error_or_ok ⟨BitVec.ofNat 8 c, a, b⟩
  · simp [he, hres]
  · simp [hi, hres]
  · simp [he, hres]
  · simp [hi, hres]

/-- Settles O4: each word is cut into its request and decoded. -/
theorem writtenOutWordsDecode : Obligations.WrittenOutWordsDecode := by
  unfold Obligations.WrittenOutWordsDecode
  decide

/-- `CTRL = {0, SEL, OP}` as a number (R59). -/
theorem ctrlWord_eq_ofNat (sel : Sel) (op : BitVec 4) : ctrlWord sel op = BitVec.ofNat 8 (16 * sel.toNat + op.toNat) := by
  revert sel op; decide

/-- Settles O5: the control words are those of `ctrlWord_eq_ofNat`, and the operands are as `encode` places them. -/
theorem assembledRequestIsCanonical : Obligations.AssembledRequestIsCanonical := by
  intro sel a b
  simp only [encode, ctrlWord_eq_ofNat]
  exact ⟨rfl, rfl, rfl, rfl, rfl, rfl, rfl, rfl⟩

/-- Settles O49: each code's value in 16 bits, two's complement (R24, R130). -/
theorem statusCodeWords : Obligations.StatusCodeWords :=
  ⟨rfl, rfl, rfl, rfl, rfl⟩

end Sys2Proof.Proofs
end

section
/-! PROOFS. One edge of each kind, and runs of edges (spec/70_reset_and_hazards.md R150, R153, R159). -/

namespace Sys2Proof.Proofs
open Sys2Proof.Machine

/-! ### One edge -/

/-- Settles O8: a reset edge ignores the request ports (R150). -/
theorem resetEdgeGivesTheResetState : Obligations.ResetEdgeGivesTheResetState := by
  intro s reqValid ctrl a b rest hin
  rw [step_cons hin, clockEdge_reset rfl]
  rfl

/-- Settles O9: an edge that accepts an operation performs it. -/
theorem stepRunsTheDecodedOperation : Obligations.StepRunsTheDecodedOperation := by
  intro s p rest i hin hrst hreq hdec
  rw [step_cons hin, clockEdge_accepts ⟨hrst, hreq, hdec⟩]

/-- A table word decodes as the request it stands for. -/
theorem decode_of_decodeTableWord {nbits w : Nat} {i : Instr} (h : decodeTableWord nbits w = some i) :
    decode (tableRequest nbits w) = .ok i := by
  unfold decodeTableWord at h
  split at h
  · rename_i j hj
    exact hj.trans (congrArg Except.ok (Option.some.inj h))
  · cases h

/-- Settles O10: the fetch word stands first in the host's list, as a presented request. -/
theorem stepRunsTheFetchWord : Obligations.StepRunsTheFetchWord := by
  intro s nbits w i h
  have hacc : Accepts (presented (tableRequest nbits w)) i := accepts_presented (decode_of_decodeTableWord h)
  rw [State.withFetchWord, step_cons (putInput_inputs _ s), clockEdge_accepts hacc, List.drop_one]
  rfl

/-- Settles O12: such a sample is an idle one, whatever its request words. -/
theorem idleEdgeHoldsTheRegisters : Obligations.IdleEdgeHoldsTheRegisters :=
  fun _ _ _ _ _ hin => step_idle hin ⟨rfl, rfl⟩

/-- Settles O13: past the end of the list the sample is `idleInput`, and the list stays empty. -/
theorem endedListIsAnIdleEdge : Obligations.EndedListIsAnIdleEdge := by
  intro s hin
  have hnext : nextInput s = idleInput := by rw [nextInput, hin, List.headD_nil]
  rw [step, hnext, clockEdge_idle ⟨rfl, rfl⟩, State.idle, State.takeInput, hin, List.tail_nil, ← hin]

/-- Settles O15: a request sets `RSP_VALID`, and an idle edge clears it. -/
theorem rspValidMarksAcceptance : Obligations.RspValidMarksAcceptance := by
  intro s p rest hin hrst
  cases hreq : p.reqValid with
  | true =>
    obtain ⟨t, hstep, hrsp, -⟩ := step_request hin hrst hreq
    exact ⟨t, hstep, hrsp⟩
  | false => exact ⟨_, step_idle hin ⟨hrst, hreq⟩, rfl⟩

/-! ### Runs -/

/-- A run of any length answers a next state and keeps the parameters, because each of its steps does. -/
theorem run_next (n : Nat) (s : State) : ∃ t : State, Host.Core.run Sys2Proof.core n s = .next t ∧ t.config = s.config := by
  induction n generalizing s with
  | zero => exact ⟨s, rfl, rfl⟩
  | succ n ih =>
    obtain ⟨u, hstep, hconfig, -⟩ := step_next s
    obtain ⟨t, hrun, hconfig'⟩ := ih u
    exact ⟨t, (run_succ hstep).trans hrun, hconfig'.trans hconfig⟩

/-- Settles O14, by `run_next`. -/
theorem everyRunCompletes : Obligations.EveryRunCompletes := by
  intro n s
  obtain ⟨t, hrun, -⟩ := run_next n s
  exact ⟨t, hrun⟩

/-- Settles O17, by `run_next`. -/
theorem parametersNeverChange : Obligations.ParametersNeverChange := by
  intro n s t h
  obtain ⟨u, hrun, hconfig⟩ := run_next n s
  cases hrun.symm.trans h
  exact hconfig

end Sys2Proof.Proofs
end

section
/-! PROOFS. The measurement mode: what changes it, what reads it, and the command it selects (spec/10_state.md R21,
spec/40_command_select.md R73 to R80). -/

namespace Sys2Proof.Proofs
open Sys2Proof.Machine

/-! ### What changes the mode -/

/-- THDDEC with a defined selector writes two values that do not depend on the state, and succeeds without a command. -/
theorem exec_thdDec_writes {sel : Sel} (hsel : sel.toNat ≤ 3) (a : Word) :
    ∃ v w : DWord, ∀ s, exec (.thdDec sel a) s = .next ((s.setR0 v).setR1 w).succeed :=
  ⟨_, _, exec_thdDec_some hsel a⟩

/-- Every operation but SETPM and ENLPM keeps the mode. -/
theorem exec_keeps_mode {i : Instr} {s t : State} (hset : ∀ a, i ≠ .setPm a) (hen : ∀ a, i ≠ .enLpm a)
    (h : exec i s = .next t) : t.activeMode = s.activeMode := by
  rcases exec_cases i s with ⟨-, he⟩ | ⟨-, he⟩ | ⟨a, hi, -⟩ | ⟨a, hi, -⟩ | ⟨_, _, -, -, -, -, he⟩ | ⟨_, _, -, he⟩ |
    ⟨_, _, _, _, -, -, -, he⟩ | ⟨_, a, rfl, hsel, -⟩ | ⟨_, _, -, -, -, he⟩
  · cases he.symm.trans h; rfl
  · cases he.symm.trans h; rfl
  · exact absurd hi (hset a)
  · exact absurd hi (hen a)
  · cases he.symm.trans h; rfl
  · cases he.symm.trans h; rfl
  · cases he.symm.trans h; rfl
  · obtain ⟨v, w, he⟩ := exec_thdDec_writes hsel a
    cases (he s).symm.trans h; rfl
  · cases he.symm.trans h; rfl

/-- An edge with neither a reset nor an accepted SETPM or ENLPM keeps the mode. -/
theorem clockEdge_keeps_mode {p : PortInput} {s t : State} (hrst : p.rst = false) (hset : ∀ a, ¬ Accepts p (.setPm a))
    (hen : ∀ a, ¬ Accepts p (.enLpm a)) (h : clockEdge p s = .next t) : t.activeMode = s.activeMode := by
  obtain ⟨hrst', -⟩ | ⟨-, he⟩ | ⟨-, -, -, he⟩ | ⟨-, i, hacc, he⟩ := clockEdge_cases p s
  · exact absurd hrst' (by simp [hrst])
  · cases he.symm.trans h; rfl
  · cases he.symm.trans h; rfl
  · exact exec_keeps_mode (fun a hi => hset a (hi ▸ hacc)) (fun a hi => hen a (hi ▸ hacc)) (he.symm.trans h)

/-- A step that takes such a sample keeps the mode. -/
theorem step_keeps_mode {s t : State} {p : PortInput} {rest : List PortInput} (hin : s.inputs = p :: rest)
    (hrst : p.rst = false) (hset : ∀ a, ¬ Accepts p (.setPm a)) (hen : ∀ a, ¬ Accepts p (.enLpm a)) (h : step s = .next t) :
    t.activeMode = s.activeMode :=
  clockEdge_keeps_mode (s := { s with inputs := rest }) hrst hset hen ((step_cons hin).symm.trans h)

/-- Settles O43: an edge with none of the three keeps the mode. -/
theorem onlyModeOperationsChangeTheMode : Obligations.OnlyModeOperationsChangeTheMode := by
  intro s t p rest hin hstep hne
  by_contra! hnone
  obtain ⟨hrst, hacc⟩ := hnone
  exact hne (step_keeps_mode hin (Bool.eq_false_of_not_eq_true hrst) (fun a => (hacc a).1) (fun a => (hacc a).2) hstep)

/-! ### What reads the mode -/

/-- Settles O44: the rule of each operation but MEASCMD names the registers it reads, and `ACTIVE_MODE` is none of them, so the two
states take the same rule with the same values. -/
theorem onlyMeasCmdReadsTheMode : Obligations.OnlyMeasCmdReadsTheMode := by
  intro i s m hi
  rcases exec_cases i s with ⟨hill, he⟩ | ⟨rfl, -⟩ | ⟨a, rfl, he⟩ | ⟨a, rfl, he⟩ | ⟨sel, w, rfl, -, hw, -, he⟩ |
    ⟨a, b, rfl, he⟩ | ⟨sel, x, a, b, rfl, -, hx, he⟩ | ⟨sel, a, rfl, hsel, he⟩ | ⟨sel, x, rfl, -, hx, he⟩
  · exact ⟨_, _, he, exec_illFormed hill _, rfl, rfl⟩
  · exact absurd rfl hi
  · exact ⟨_, _, he, exec_setPm a _, rfl, rfl⟩
  · exact ⟨_, _, he, exec_enLpm a _, rfl, rfl⟩
  · exact ⟨_, _, he, exec_fixCmd_some hw, rfl, rfl⟩
  · exact ⟨_, _, he, exec_conv a b _, rfl, rfl⟩
  · exact ⟨_, _, he, exec_thdEnc_some hx a b _, rfl, rfl⟩
  · exact ⟨_, _, he, exec_thdDec_some hsel a _, rfl, rfl⟩
  · exact ⟨_, _, he, exec_thdRCmd_some hx _, rfl, rfl⟩

/-! ### The mode at the next measurement command -/

/-- A step on a sample that leaves the mode keeps the mode and the parameters, and takes the sample. -/
theorem step_leavesMode {s : State} {p : PortInput} {rest : List PortInput} (hin : s.inputs = p :: rest) (hp : LeavesMode p) :
    ∃ t, step s = .next t ∧ t.activeMode = s.activeMode ∧ t.config = s.config ∧ t.inputs = rest := by
  obtain ⟨hrst, hleaves⟩ := hp
  obtain ⟨t, hstep, hconfig, hrest⟩ := step_next s
  rw [hin, List.tail_cons] at hrest
  have hmode := step_keeps_mode hin hrst (fun a ⟨_, hreq, hdec⟩ => (hleaves hreq a).1 hdec)
    (fun a ⟨_, hreq, hdec⟩ => (hleaves hreq a).2 hdec) hstep
  exact ⟨t, hstep, hmode, hconfig, hrest⟩

/-- An accepted operation is run by the step, on the state with the sample taken. -/
theorem step_accepts {s : State} {p : PortInput} {rest : List PortInput} {i : Instr} (hin : s.inputs = p :: rest)
    (hp : Accepts p i) : step s = exec i { s with inputs := rest } := by
  rw [step_cons hin, clockEdge_accepts hp]

/-- Over edges that leave the mode, the next MEASCMD answers the command of the mode they began with. -/
theorem run_leavesMode_measCmd {s : State} {q : PortInput} {between rest : List PortInput}
    (hin : s.inputs = between ++ q :: rest) (hbetween : ∀ x ∈ between, LeavesMode x) (hq : Accepts q .measCmd) :
    ∃ t : State, Host.Core.run Sys2Proof.core (between.length + 1) s = .next t ∧ t.cmdValid = true ∧
      t.cmd = measCommand s.config.cmdTable s.config.clockStretch s.activeMode := by
  induction between generalizing s with
  | nil => exact ⟨_, run_succ (step_accepts hin hq), rfl, rfl⟩
  | cons x xs ih =>
    obtain ⟨hx, hxs⟩ := List.forall_mem_cons.mp hbetween
    obtain ⟨u, hstep, hmode, hconfig, hrest⟩ := step_leavesMode hin hx
    obtain ⟨t, hrun, hvalid, hcmd⟩ := ih hrest hxs
    exact ⟨t, (run_succ hstep).trans hrun, hvalid, by rw [hcmd, hmode, hconfig]⟩

/-- Settles O22: the first edge selects the mode, and `run_leavesMode_measCmd` carries it to the MEASCMD. -/
theorem selectedModeReachesTheNextMeasCmd : Obligations.SelectedModeReachesTheNextMeasCmd := by
  intro s p q between rest a hin hbetween hq
  constructor <;> intro hp
  · have hstep := (step_accepts hin hp).trans (exec_setPm a _)
    rw [← modeOfCode_eq, run_succ hstep]
    exact run_leavesMode_measCmd rfl hbetween hq
  · have hstep := (step_accepts hin hp).trans (exec_enLpm a _)
    rw [← modeOfBool_eq, run_succ hstep]
    exact run_leavesMode_measCmd rfl hbetween hq

/-! ### The command words tell apart what selects them -/

/-- Settles O23: the seventeen words compared. -/
theorem defaultTableIsValid : Obligations.DefaultTableIsValid :=
  ⟨by decide, by decide, rfl⟩

/-- The codes of one variant are distinct, so each is selected by one mode alone (R79 (c)). -/
theorem measCommand_injective {t : CmdTable} (ht : t.Valid) (cs : Bool) : Function.Injective (measCommand t cs) := by
  obtain ⟨-, -, hcs, hnocs⟩ := ht
  simp only [CmdTable.measCs, CmdTable.measNocs, List.nodup_cons, List.mem_cons, List.not_mem_nil, not_or] at hcs hnocs
  intro m m' h
  cases cs with
  | true => cases m <;> cases m' <;> simp_all [measCommand]
  | false => cases m <;> cases m' <;> simp_all [measCommand]

/-- The codes of the two variants are disjoint (R79 (a)). -/
theorem measCommand_variant {t : CmdTable} (ht : t.Valid) {m m' : Mode} : measCommand t true m ≠ measCommand t false m' := by
  obtain ⟨hdisjoint, -⟩ := ht
  have hcs : measCommand t true m ∈ t.measCs := measCommand_mem ⟨true, t, .saturate⟩ m
  have hnocs : measCommand t false m' ∈ t.measNocs := measCommand_mem ⟨false, t, .saturate⟩ m'
  intro h
  have := List.all_eq_true.mp hdisjoint _ hcs
  simp [h, hnocs] at this

/-- Settles O24: the variants' codes are disjoint, so equal words have one variant, whose codes tell the modes apart. -/
theorem measCommandTellsVariantAndMode : Obligations.MeasCommandTellsVariantAndMode := by
  intro s s' t t' hvalid htable h h' hcmd
  cases h
  cases h'
  have heq : measCommand s.config.cmdTable s.config.clockStretch s.activeMode =
      measCommand s.config.cmdTable s'.config.clockStretch s'.activeMode := htable ▸ hcmd
  have hvariant : s.config.clockStretch = s'.config.clockStretch := by
    cases hcs : s.config.clockStretch <;> cases hcs' : s'.config.clockStretch <;> rw [hcs, hcs'] at heq
    · exact absurd heq.symm (measCommand_variant hvalid)
    · exact absurd heq (measCommand_variant hvalid)
  rw [← hvariant] at heq
  exact ⟨hvariant, measCommand_injective hvalid _ heq⟩

/-- The place of an alert operation's command in the list of the eight: the read commands come first (R71, R78). -/
def alertPlace : Instr → Nat
  | .thdRCmd sel => sel.toNat
  | .thdEnc sel _ _ => 4 + sel.toNat
  | _ => 8

theorem alertRdCommand_getElem? {sel : Sel} {x : AlertSel} (h : alertSel sel = some x) (t : CmdTable) :
    t.alert[sel.toNat]? = some (alertRdCommand t x) := by
  have hle := (alertSel_eq_some h).1
  rw [alertRdCommand_eq h]
  generalize sel.toNat = n at hle
  interval_cases n <;> rfl

theorem alertWrCommand_getElem? {sel : Sel} {x : AlertSel} (h : alertSel sel = some x) (t : CmdTable) :
    t.alert[4 + sel.toNat]? = some (alertWrCommand t x) := by
  have hle := (alertSel_eq_some h).1
  rw [alertWrCommand_eq h]
  generalize sel.toNat = n at hle
  interval_cases n <;> rfl

/-- THDRCMD and THDENC with a defined selector leave the word at their place of the list. -/
theorem exec_alert_cmd {sel : Sel} {i : Instr} {a b : Word} {s t : State} (hsel : sel.toNat ≤ 3)
    (hi : i = .thdRCmd sel ∨ i = .thdEnc sel a b) (h : exec i s = .next t) :
    s.config.cmdTable.alert[alertPlace i]? = some t.cmd := by
  obtain ⟨x, hx⟩ := alertSel_of_le hsel
  obtain rfl | rfl := hi
  · cases (exec_thdRCmd_some hx s).symm.trans h
    exact alertRdCommand_getElem? hx _
  · cases (exec_thdEnc_some hx a b s).symm.trans h
    exact alertWrCommand_getElem? hx _

/-- Settles O25: the eight words are distinct, so equal words stand at one place, and the place tells the operation and its selector. -/
theorem alertCommandsAreDistinct : Obligations.AlertCommandsAreDistinct := by
  intro s t sel sel' i i' a b a' b' u hvalid hsel hsel' hi hi' h h' hcmd
  have hword := exec_alert_cmd hsel hi h
  have hplace : alertPlace i = alertPlace i' :=
    (List.getElem?_inj (List.getElem?_eq_some_iff.mp hword).1 hvalid.2.1).mp
      (hword.trans (hcmd ▸ (exec_alert_cmd hsel' hi' h').symm))
  obtain rfl | rfl := hi <;> obtain rfl | rfl := hi' <;> simp only [alertPlace] at hplace
  · simpa using BitVec.eq_of_toNat_eq hplace
  · omega
  · omega
  · simpa using BitVec.eq_of_toNat_eq (Nat.add_left_cancel hplace)

end Sys2Proof.Proofs
end

section
/-! PROOFS. The scaler's results: exactness, ranges, the floor form and 32-bit arithmetic (spec/41_scaler.md R90 to R95). -/

namespace Sys2Proof.Proofs
open Sys2Proof.Machine

/-- Settles O27: both registers hold their integers exactly, and the integers are floor divisions by 8192 of multiples of the raw
words. -/
theorem convResultsAreExactMonotoneAndBounded : Obligations.ConvResultsAreExactMonotoneAndBounded := by
  intro a b a' b' s
  refine ⟨_, _, exec_conv a b s, exec_conv a' b' s, ?_⟩
  simp only [succeed_r0, succeed_r1, setR1_r0, setR1_r1, setR0_r0, trunc32_decodeT_toInt, trunc32_decodeRH_toInt]
  simp only [decodeT_eq, decodeRH_eq, u16, true_and]
  refine ⟨?_, ?_, ?_, ?_, ?_, ?_, ?_, ?_, ?_, ?_⟩ <;> omega

/-- Settles O28: cancel 8 in each fraction. -/
theorem shiftFormIsFloorForm : Obligations.ShiftFormIsFloorForm := by
  intro x _
  rw [decodeT_eq, decodeRH_eq]
  omega

/-- A register word of a difference is the wrapping difference. -/
theorem trunc32_sub (n k : Nat) : trunc32 ((n : Int) - k) = BitVec.ofNat 32 n - BitVec.ofNat 32 k := by
  rw [trunc32, Int.sub_eq_add_neg, BitVec.ofInt_add, BitVec.ofInt_neg, BitVec.ofInt_natCast, BitVec.ofInt_natCast,
    BitVec.sub_eq_add_neg]

/-- The scaler's product of a 16-bit word and its shift do not wrap in 32 bits. -/
theorem ofNat_scaled {k : Nat} (hk : k < 2 ^ 16) (x : Word) :
    BitVec.ofNat 32 (k * x.toNat / 8192) = (BitVec.ofNat 32 k * x.setWidth 32) >>> 13 := by
  have hk32 : (BitVec.ofNat 32 k).toNat = k := by rw [BitVec.toNat_ofNat]; omega
  have hx32 : (x.setWidth 32).toNat = x.toNat := BitVec.toNat_setWidth_of_le (by decide)
  have hprod : k * x.toNat < 2 ^ 16 * 2 ^ 16 := Nat.mul_lt_mul'' hk x.isLt
  apply BitVec.eq_of_toNat_eq
  rw [BitVec.toNat_ushiftRight, BitVec.toNat_mul_of_lt (by rwa [hk32, hx32]), hk32, hx32, BitVec.toNat_ofNat,
    Nat.shiftRight_eq_div_pow]
  omega

theorem trunc32_decodeT_wrapping (a : Word) :
    trunc32 (decodeT (u16 a)) = ((21875#32 * a.setWidth 32) >>> 13) - 45000#32 := by
  rw [decodeT_eq, u16, ← ofNat_scaled (by decide) a]
  exact trunc32_sub _ 45000

theorem trunc32_decodeRH_wrapping (b : Word) : trunc32 (decodeRH (u16 b)) = (12500#32 * b.setWidth 32) >>> 13 := by
  rw [decodeRH_eq, u16, ← ofNat_scaled (by decide) b, trunc32, BitVec.ofInt_natCast]

/-- Settles O29, one register each. -/
theorem convAgreesWith32BitArithmetic : Obligations.ConvAgreesWith32BitArithmetic :=
  fun a b s => ⟨_, exec_conv a b s, trunc32_decodeT_wrapping a, trunc32_decodeRH_wrapping b⟩

end Sys2Proof.Proofs
end

section
/-! PROOFS. THDENC in range and out of range (spec/42_threshold.md R102 to R108). -/

namespace Sys2Proof.Proofs
open Sys2Proof.Machine

/-- Settles O32: in range the conditioned inputs are the inputs, so neither field is a draw. -/
theorem thdEncInRangeUnderEitherPolicy : Obligations.ThdEncInRangeUnderEitherPolicy := by
  intro sel a b s hsel ha hlo hhi
  have hword : zext32 (limitWord s.config.thdRangePolicy s.draws (u16 a) (s16 b)) =
      BitVec.ofNat 32 (limitFormula a.toNat b.toInt) :=
    zext32_limitWord s.draws (conditionH_of_le _ ha) ha (conditionT_of_range _ hlo hhi) hhi
  rw [exec_thdEnc_eq hsel (limitDraws_eq_zero (.inr ⟨ha, hlo, hhi⟩)), hword]

/-! ### Inputs out of range under UNSPECIFIED -/

theorem conditionH_unspecified_of_gt {h : Nat} (hh : 1000 < h) : conditionH .unspecified h = none :=
  if_neg (Nat.not_le.mpr hh)

theorem conditionT_unspecified_of_out {t : Int} (ht : t < -450 ∨ 1300 < t) : conditionT .unspecified t = none :=
  if_neg (by omega)

theorem fieldHB_of_none {p : ThdRangePolicy} {h : Nat} (hc : conditionH p h = none) (n : Nat) :
    fieldHB p n h = Config.freeHB n := by
  simp only [fieldHB, hc]

theorem fieldTB_of_none {p : ThdRangePolicy} {t : Int} (hc : conditionT p t = none) (n : Nat) :
    fieldTB p n t = Config.freeTB n := by
  simp only [fieldTB, hc]

/-- A request with an input out of range draws, however many fields (R102). -/
theorem limitDraws_unspecified_of_out {h : Nat} {t : Int} (hout : 1000 < h ∨ t < -450 ∨ 1300 < t) :
    limitDraws .unspecified h t = 1 := by
  obtain hh | ht := hout
  · simp [limitDraws, conditionH_unspecified_of_gt hh]
  · simp [limitDraws, conditionT_unspecified_of_out ht]

/-- The fraction of a temperature not below -450 by natural-number arithmetic. -/
theorem thdEncT_of_add {t : Int} {g : Nat} (h : t + 450 = g) : thdEncT t = g * 65535 / 1750 := by
  rw [thdEncT, h]
  omega

/-- A temperature in range has a fraction that is no negative number, so the field is its floor as an integer too. -/
theorem fieldTB_toInt {p : ThdRangePolicy} {t : Int} (hlo : -450 ≤ t) (hhi : t ≤ 1300) (n : Nat) :
    ((fieldTB p n t).toNat : Int) = (t + 450) * 65535 / 1750 / 128 := by
  rw [fieldTB_toNat (conditionT_of_range p hlo hhi) hhi, thdEncT]
  omega

/-- Settles O33: the witnesses are the two fields and the counter of the model, each given by its input's range. -/
theorem thdEncDrawsTheFieldOutOfRange : Obligations.ThdEncDrawsTheFieldOutOfRange := by
  intro sel a b s hsel hp
  obtain ⟨x, hx⟩ := alertSel_of_le hsel
  refine ⟨fieldHB .unspecified s.draws a.toNat, fieldTB .unspecified s.draws b.toInt,
    s.draws + limitDraws .unspecified a.toNat b.toInt, ?_, ?_, ?_, ?_, ?_, ?_, ?_⟩
  · rw [exec_thdEnc_some hx, hp, alertWrCommand_eq hx, succeedWithCommand_eq]
    rfl
  · exact fun ha => fieldHB_toNat (conditionH_of_le _ ha) ha
  · exact fun ha => fieldHB_of_none (conditionH_unspecified_of_gt ha) _
  · exact fun ⟨hlo, hhi⟩ => fieldTB_toInt hlo hhi _
  · exact fun hb => fieldTB_of_none (conditionT_unspecified_of_out hb) _
  · intro hin
    have hzero : limitDraws .unspecified a.toNat b.toInt = 0 := limitDraws_eq_zero (.inr hin)
    rw [hzero, Nat.add_zero]
  · exact fun hout => by rw [limitDraws_unspecified_of_out hout]

/-! ### The limit word in R0 -/

/-- THDENC with a defined selector leaves the zero-extended limit word in R0, drawn or not. -/
theorem exec_thdEnc_r0 {sel : Sel} (hsel : sel.toNat ≤ 3) (a b : Word) (s : State) :
    ∃ t, exec (.thdEnc sel a b) s = .next t ∧
      t.r0 = zext32 (limitWord s.config.thdRangePolicy s.draws (u16 a) (s16 b)) := by
  obtain ⟨x, hx⟩ := alertSel_of_le hsel
  exact ⟨_, exec_thdEnc_some hx a b s, rfl⟩

/-- In range the limit word is its two computed fields, under either policy. -/
theorem limitWord_toNat_of_range (p : ThdRangePolicy) (n : Nat) {h : Nat} {t : Int} (hh : h ≤ 1000) (hlo : -450 ≤ t)
    (hhi : t ≤ 1300) : (limitWord p n h t).toNat = thdEncH h / 512 * 512 + thdEncT t / 128 := by
  obtain ⟨hH, hT⟩ := limitWord_fields p n hh hlo hhi
  omega

theorem thdEncH_mono {h h' : Nat} (hle : h ≤ h') : thdEncH h ≤ thdEncH h' := by
  unfold thdEncH roundHalfUp; omega

theorem thdEncT_mono {t t' : Int} (hle : t ≤ t') : thdEncT t ≤ thdEncT t' := by
  unfold thdEncT; omega

/-- In range the limit word does not fall where an input rises: each field rises with its own input. -/
theorem limitWord_mono (p p' : ThdRangePolicy) (n n' : Nat) {h h' : Nat} {t t' : Int} (hh : h ≤ h') (hh' : h' ≤ 1000)
    (hlo : -450 ≤ t) (ht : t ≤ t') (ht' : t' ≤ 1300) : (limitWord p n h t).toNat ≤ (limitWord p' n' h' t').toNat := by
  have hH := thdEncH_mono hh
  have hT := thdEncT_mono ht
  rw [limitWord_toNat_of_range p n (hh.trans hh') hlo (ht.trans ht'), limitWord_toNat_of_range p' n' hh' (hlo.trans ht) ht']
  omega

/-- Settles O38, by `limitWord_mono`. -/
theorem limitWordIsMonotone : Obligations.LimitWordIsMonotone := by
  intro sel a b a' b' s t u hsel ha ha' hlo hb hb' ht hu
  obtain ⟨t', hexec, hr0⟩ := exec_thdEnc_r0 hsel a b s
  obtain ⟨u', hexec', hr0'⟩ := exec_thdEnc_r0 hsel a' b' s
  cases hexec.symm.trans ht
  cases hexec'.symm.trans hu
  rw [hr0, hr0', zext32_toNat, zext32_toNat]
  exact limitWord_mono _ _ _ _ ha ha' hlo hb hb'

end Sys2Proof.Proofs
end

section
/-! PROOFS. THDDEC and the round trip of thresholds (spec/42_threshold.md R106, R107, R111). -/

namespace Sys2Proof.Proofs
open Sys2Proof.Machine

/-! ### The decoded values -/

/-- Settles O52: the first form is the definition, the second is `roundHalfUp_65535`, and a tie would make 65535 even. -/
theorem thdDecHumidityFormsAgree : Obligations.ThdDecHumidityFormsAgree := by
  intro w
  refine ⟨rfl, roundHalfUp_65535 _, ?_⟩
  omega

theorem thdDecH_congr {w w' : Word} (h : w.toNat / 512 = w'.toNat / 512) : thdDecH w = thdDecH w' := by
  rw [thdDecH_eq, thdDecH_eq, h]

theorem thdDecT_congr {w w' : Word} (h : w.toNat % 512 = w'.toNat % 512) : thdDecT w = thdDecT w' := by
  rw [thdDecT_eq, thdDecT_eq, h]

/-- Settles O35: the registers hold the decoded values exactly, and each is a function of one field. -/
theorem thdDecResultsAreBoundedByField : Obligations.ThdDecResultsAreBoundedByField := by
  intro sel a a' s hsel
  have hH := thdDecH_le a
  have hT := thdDecT_range a
  refine ⟨_, _, exec_thdDec_some hsel a s, exec_thdDec_some hsel a' s, ?_⟩
  simp only [succeed_r0, succeed_r1, setR1_r0, setR1_r1, setR0_r0, trunc32_thdDecH_toInt, trunc32_thdDecT_toInt]
  refine ⟨by omega, by omega, hT.1, hT.2, fun h => ?_, fun h => ?_⟩
  · rw [thdDecH_congr h]
  · rw [thdDecT_congr h]

/-! ### Encode, then decode -/

/-- Cutting the fraction to seven bits and rounding lose at most 8 tenths (R111 (a)). -/
theorem thdDecH_of_encoded {w : Word} {h : Nat} (hw : w.toNat / 512 = thdEncH h / 512) :
    (h : Int) - 8 ≤ thdDecH w ∧ thdDecH w ≤ h := by
  rw [thdDecH_eq, hw, thdEncH, roundHalfUp]
  omega

/-- Cutting the fraction to nine bits and flooring lose at most 4 tenths (R111 (b)). -/
theorem thdDecT_of_encoded {w : Word} {t : Int} (hw : w.toNat % 512 = thdEncT t / 128) (hlo : -450 ≤ t) :
    t - 4 ≤ thdDecT w ∧ thdDecT w ≤ t := by
  rw [thdDecT_eq, hw, thdEncT]
  omega

/-- The argument word of a zero-extended limit word is the limit word. -/
theorem setWidth_zext32 (w : Word) : (zext32 w).setWidth 16 = w := by
  rw [zext32, BitVec.setWidth_setWidth_of_le _ (by decide), BitVec.setWidth_eq]

/-- Settles O37: THDDEC gets the limit word, whose fields are those of the encoded thresholds. -/
theorem thresholdRoundTripStaysClose : Obligations.ThresholdRoundTripStaysClose := by
  intro sel sel' a b s hsel hsel' ha hlo hhi
  obtain ⟨t, hexec, hr0⟩ := exec_thdEnc_r0 hsel a b s
  obtain ⟨hfieldH, hfieldT⟩ := limitWord_fields s.config.thdRangePolicy s.draws ha hlo hhi
  have hword : t.outputs.limitArgument = limitWord s.config.thdRangePolicy s.draws a.toNat b.toInt := by
    rw [PortOutput.limitArgument, outputs_r0, hr0, setWidth_zext32, u16, s16]
  refine ⟨t, _, hexec, exec_thdDec_some hsel' _ t, ?_⟩
  obtain ⟨hH, hH'⟩ := thdDecH_of_encoded hfieldH
  obtain ⟨hT, hT'⟩ := thdDecT_of_encoded hfieldT hlo
  simp only [succeed_r0, succeed_r1, setR1_r0, setR1_r1, setR0_r0, trunc32_thdDecH_toInt, trunc32_thdDecT_toInt, hword]
  exact ⟨hH, by omega, hT, hT'⟩

theorem humidityRoundTripLaw (p : ThdRangePolicy) (n : Nat) : HumidityRoundTripLaw p n := by
  intro h t hh hlo hhi
  obtain ⟨hfield, -⟩ := limitWord_fields p n hh hlo hhi
  obtain ⟨hH, hH'⟩ := thdDecH_of_encoded hfield
  refine ⟨hH, hH', fun h31 => ?_, fun h0 => by omega⟩
  rw [thdDecH_eq, hfield, h31]
  rfl

theorem temperatureRoundTripLaw (p : ThdRangePolicy) (n : Nat) : TemperatureRoundTripLaw p n := by
  intro h t hh hlo hhi
  obtain ⟨-, hfield⟩ := limitWord_fields p n hh hlo hhi
  obtain ⟨hT, hT'⟩ := thdDecT_of_encoded hfield hlo
  refine ⟨hT, hT', fun hworst => ?_, fun hbest => ?_⟩
  · rw [thdDecT_eq, hfield, hworst]
    rfl
  · rw [thdDecT_eq, hfield, hbest]
    rfl

theorem limitMonotoneLaw (p : ThdRangePolicy) (n : Nat) : LimitMonotoneLaw p n :=
  fun _ _ _ _ hh hh' hlo ht ht' =>
    ⟨limitWord_mono p p n n hh hh' hlo le_rfl (ht.trans ht'), limitWord_mono p p n n le_rfl (hh.trans hh') hlo ht ht'⟩

/-! ### Decode, then encode -/

/-- Flooring the decoded value `g` takes it below its field's fraction, but for field 0: equality would ask that 13107 divide the
field. -/
theorem reencoded_temperature {f g : Nat} (hf : f < 512) (hg : f * 128 * 1750 / 65535 = g) :
    g * 65535 / 1750 / 128 = f - 1 := by
  obtain rfl | hpos := Nat.eq_zero_or_pos f
  · simp [← hg]
  · have hbelow : g * 65535 ≠ f * 224000 := by omega
    have hclose : f * 224000 < g * 65535 + 65535 := by omega
    have hfloor : g * 65535 ≤ f * 224000 := by omega
    omega

theorem thdEncT_thdDecT (w : Word) : thdEncT (thdDecT w) / 128 = w.toNat % 512 - 1 := by
  have hsum : thdDecT w + 450 = (w.toNat % 512 * 128 * 1750 / 65535 : Nat) := by rw [thdDecT_eq, Int.sub_add_cancel]
  rw [thdEncT_of_add hsum, reencoded_temperature (Nat.mod_lt w.toNat (by decide)) rfl]

theorem thdEncH_thdDecH (w : Word) :
    thdEncH (thdDecH w) / 512 = thdEncH (roundHalfUp (1000 * (w.toNat / 512 * 512)) 65535) / 512 := by
  rw [thdDecH_eq, roundHalfUp]

/-- All but one number below 512 are positive. -/
theorem countP_pred_succ : ((List.range 512).countP fun f => decide (f - 1 + 1 = f)) = 511 := by
  rw [List.range_succ_eq_map, List.countP_cons_of_neg (by decide), List.countP_map, List.countP_eq_length.mpr (by simp),
    List.length_range]

theorem countP_reencoded_humidity :
    ((List.range 128).countP fun f => decide (thdEncH (roundHalfUp (1000 * (f * 512)) 65535) / 512 ≠ f)) = 59 := by
  decide

/-- The two fields of a limit word written as a number. -/
theorem ofNat_fields {hb tb : Nat} (hhb : hb < 128) (htb : tb < 512) :
    (BitVec.ofNat 16 (512 * hb + tb)).toNat / 512 = hb ∧ (BitVec.ofNat 16 (512 * hb + tb)).toNat % 512 = tb := by
  rw [BitVec.toNat_ofNat]
  omega

/-- Settles O39: re-encoding reads each field of the limit word alone. -/
theorem reencodingMissesTheseFields : Obligations.ReencodingMissesTheseFields := by
  refine ⟨(List.countP_congr fun f hf => ?_).trans countP_pred_succ,
    (List.countP_congr fun f hf => ?_).trans countP_reencoded_humidity⟩
  · obtain ⟨-, hfield⟩ := ofNat_fields (hb := 0) (by decide) (List.mem_range.mp hf)
    rw [Nat.mul_zero, Nat.zero_add] at hfield
    rw [thdEncT_thdDecT, hfield]
  · obtain ⟨hfield, -⟩ := ofNat_fields (tb := 0) (List.mem_range.mp hf) (by decide)
    rw [Nat.add_zero] at hfield
    rw [thdEncH_thdDecH, hfield]

/-- The decoded thresholds are in range, so re-encoding draws neither field, under either policy. -/
theorem reencode_fields (p : ThdRangePolicy) (n : Nat) (w : Word) :
    (reencode p n w).toNat / 512 = thdEncH (thdDecH w) / 512 ∧ (reencode p n w).toNat % 512 = w.toNat % 512 - 1 := by
  have hH := thdDecH_le w
  obtain ⟨hlo, hhi⟩ := thdDecT_range w
  obtain ⟨hfieldH, hfieldT⟩ := limitWord_fields p n (hH.trans (by decide)) hlo (hhi.trans (by decide))
  exact ⟨hfieldH, hfieldT.trans (thdEncT_thdDecT w)⟩

theorem reencodingLaw (p : ThdRangePolicy) (n : Nat) : ReencodingLaw p n := by
  refine ⟨fun hb hhb => ?_, fun tb htb => ?_⟩
  · refine (List.countP_congr fun tb htb => ?_).trans countP_pred_succ
    obtain ⟨-, hfield⟩ := ofNat_fields hhb (List.mem_range.mp htb)
    rw [(reencode_fields p n _).2, hfield]
  · refine (List.countP_congr fun hb hhb => ?_).trans countP_reencoded_humidity
    obtain ⟨hfield, -⟩ := ofNat_fields (List.mem_range.mp hhb) htb
    rw [(reencode_fields p n _).1, thdEncH_thdDecH, hfield]

/-- Settles O53: the four laws. -/
theorem thresholdRoundTripLaws : Obligations.ThresholdRoundTripLaws :=
  fun p n => ⟨humidityRoundTripLaw p n, temperatureRoundTripLaw p n, limitMonotoneLaw p n, reencodingLaw p n⟩

end Sys2Proof.Proofs
end

section
/-! PROOFS. The threshold unit in wrapping 32-bit arithmetic (spec/42_threshold.md section 1). -/

namespace Sys2Proof.Proofs
open Sys2Proof.Machine

/-! ### Conditioning by the 32-bit clamps -/

/-- A computed humidity field conditions its input by the clamp: in range the clamp changes nothing. -/
theorem conditionH_of_computed {p : ThdRangePolicy} {h : Nat} (hp : p = .saturate ∨ h ≤ 1000) :
    conditionH p h = some (min h 1000) := by
  obtain rfl | hle := hp
  · exact conditionH_saturate h
  · rw [conditionH_of_le p hle, Nat.min_eq_left hle]

theorem conditionT_of_computed {p : ThdRangePolicy} {t : Int} (hp : p = .saturate ∨ (-450 ≤ t ∧ t ≤ 1300)) :
    conditionT p t = some (clamp t (-450) 1300) := by
  obtain rfl | ⟨hlo, hhi⟩ := hp
  · exact conditionT_saturate t
  · rw [conditionT_of_range p hlo hhi, clamp, max_eq_left hlo, min_eq_left hhi]

/-! ### The operations that do not wrap -/

theorem toNat_mul_ofNat {x : DWord} {k : Nat} (h : x.toNat * k < 2 ^ 32) : (x * BitVec.ofNat 32 k).toNat = x.toNat * k := by
  rw [BitVec.toNat_mul, BitVec.toNat_ofNat, Nat.mul_mod_mod, Nat.mod_eq_of_lt h]

theorem toNat_add_ofNat {x : DWord} {k : Nat} (h : x.toNat + k < 2 ^ 32) : (x + BitVec.ofNat 32 k).toNat = x.toNat + k := by
  rw [BitVec.toNat_add, BitVec.toNat_ofNat, Nat.add_mod_mod, Nat.mod_eq_of_lt h]

theorem toNat_udiv_ofNat {x : DWord} {k : Nat} (h : k < 2 ^ 32) : (x / BitVec.ofNat 32 k).toNat = x.toNat / k := by
  rw [BitVec.toNat_udiv, BitVec.toNat_ofNat, Nat.mod_eq_of_lt h]

/-- Adding a constant to a negative word wraps once, back to the integer's sum. -/
theorem toNat_add_ofNat_of_toInt {x : DWord} {k : Nat} (h : 0 ≤ x.toInt + k) (h' : x.toInt + k < 2 ^ 32) :
    ((x + BitVec.ofNat 32 k).toNat : Int) = x.toInt + k := by
  rw [BitVec.toNat_add, BitVec.toNat_ofNat]
  rw [BitVec.toInt_eq_toNat_cond] at h h' ⊢
  split_ifs at h h' ⊢ <;> omega

/-! ### The fractions -/

/-- `ThdEncH` by the form with one division of the halved terms. -/
theorem thdEncH_eq (h : Nat) : thdEncH h = (h * 65535 + 500) / 1000 := by
  unfold thdEncH roundHalfUp; omega

/-- No intermediate value of the humidity's fraction wraps. -/
theorem thdEncH_wrapping (a : Word) :
    ((clampH32 a * 65535#32 + 500#32) / 1000#32).toNat = thdEncH (min a.toNat 1000) := by
  have hclamp := clampH32_toNat a
  have hprod : (clampH32 a * 65535#32).toNat = (clampH32 a).toNat * 65535 := toNat_mul_ofNat (by omega)
  have hsum : (clampH32 a * 65535#32 + 500#32).toNat = (clampH32 a * 65535#32).toNat + 500 := toNat_add_ofNat (by omega)
  rw [toNat_udiv_ofNat (by decide), hsum, hprod, hclamp, thdEncH_eq]

/-- The clamped temperature plus 450 is no negative number, and no intermediate value of its fraction wraps. -/
theorem thdEncT_wrapping (b : Word) :
    ((clampT32 b + 450#32) * 65535#32 / 1750#32).toNat = thdEncT (clamp b.toInt (-450) 1300) := by
  have hclamp := clampT32_toInt b
  obtain ⟨hlo, hhi⟩ := clamp_range b.toInt
  have hsum : ((clampT32 b + 450#32).toNat : Int) = (clampT32 b).toInt + 450 :=
    toNat_add_ofNat_of_toInt (by omega) (by omega)
  have hprod : ((clampT32 b + 450#32) * 65535#32).toNat = (clampT32 b + 450#32).toNat * 65535 := toNat_mul_ofNat (by omega)
  rw [toNat_udiv_ofNat (by decide), hprod, ← hclamp, thdEncT_of_add hsum.symm]

/-! ### The two fields of R0 -/

theorem toNat_and_humidityMask {x : DWord} (h : x.toNat < 2 ^ 16) : (x &&& 0xFE00#32).toNat = x.toNat / 512 * 512 := by
  rw [BitVec.toNat_and]
  exact nat_and_humidityMask h

theorem toNat_and_temperatureMask (x : DWord) : (x &&& 0x01FF#32).toNat = x.toNat % 512 := by
  rw [BitVec.toNat_and]
  exact Nat.and_two_pow_sub_one_eq_mod x.toNat 9

/-- A zero-extended word has no bit from 16 up. -/
theorem zext32_ushiftRight (w : Word) : zext32 w >>> 16 = 0#32 := by
  apply BitVec.eq_of_toNat_eq
  rw [BitVec.toNat_ushiftRight, zext32_toNat, Nat.shiftRight_eq_div_pow, Nat.div_eq_of_lt w.isLt]
  rfl

/-- The humidity field of R0 is that of the clamped input's fraction. -/
theorem limitWord_humidity_wrapping {p : ThdRangePolicy} {a : Word} (hp : p = .saturate ∨ a.toNat ≤ 1000) (n : Nat) (t : Int) :
    zext32 (limitWord p n a.toNat t) &&& 0xFE00#32 = ((clampH32 a * 65535#32 + 500#32) / 1000#32) &&& 0xFE00#32 := by
  have hfield := fieldHB_toNat (n := n) (conditionH_of_computed hp) (Nat.min_le_right _ _)
  have hfraction := thdEncH_le (Nat.min_le_right a.toNat 1000)
  have hfraction' := thdEncH_wrapping a
  have hword := zext32_toNat (limitWord p n a.toNat t)
  apply BitVec.eq_of_toNat_eq
  rw [toNat_and_humidityMask (by omega), toNat_and_humidityMask (by omega), hword, hfraction', limitWord_toNat, hfield]
  omega

/-- The temperature field of R0 is that of the clamped input's fraction. -/
theorem limitWord_temperature_wrapping {p : ThdRangePolicy} {b : Word}
    (hp : p = .saturate ∨ (-450 ≤ b.toInt ∧ b.toInt ≤ 1300)) (n h : Nat) :
    zext32 (limitWord p n h b.toInt) &&& 0x01FF#32 =
      (((clampT32 b + 450#32) * 65535#32 / 1750#32) >>> 7) &&& 0x01FF#32 := by
  have hfield := fieldTB_toNat (n := n) (conditionT_of_computed hp) (clamp_range _).2
  apply BitVec.eq_of_toNat_eq
  rw [toNat_and_temperatureMask, toNat_and_temperatureMask, BitVec.toNat_ushiftRight, Nat.shiftRight_eq_div_pow,
    thdEncT_wrapping, zext32_toNat, limitWord_toNat, hfield, Nat.mul_add_mod_self_right]

/-! ### The decoded values -/

theorem toNat_setWidth_and_humidityMask (w : Word) :
    (w.setWidth 32 &&& 0xFE00#32).toNat = (w &&& 0xFE00#16).toNat := by
  rw [toNat_and_humidityMask (by rw [BitVec.toNat_setWidth_of_le (by decide)]; exact w.isLt),
    BitVec.toNat_setWidth_of_le (by decide), and_humidityMask]

theorem toNat_setWidth_and_temperatureMask (w : Word) :
    (w.setWidth 32 &&& 0x01FF#32).toNat = (w &&& 0x01FF#16).toNat := by
  rw [toNat_and_temperatureMask, BitVec.toNat_setWidth_of_le (by decide), and_temperatureMask]

theorem trunc32_thdDecH_wrapping (w : Word) :
    trunc32 (thdDecH w) = (1000#32 * (w.setWidth 32 &&& 0xFE00#32) + 32767#32) / 65535#32 := by
  have hmask := toNat_setWidth_and_humidityMask w
  have hprod : ((w.setWidth 32 &&& 0xFE00#32) * 1000#32).toNat = (w.setWidth 32 &&& 0xFE00#32).toNat * 1000 :=
    toNat_mul_ofNat (by omega)
  have hsum := toNat_add_ofNat (x := (w.setWidth 32 &&& 0xFE00#32) * 1000#32) (k := 32767) (by omega)
  rw [trunc32_thdDecH, BitVec.mul_comm]
  apply BitVec.eq_of_toNat_eq
  rw [toNat_udiv_ofNat (by decide), hsum, hprod, hmask, BitVec.toNat_ofNat, Nat.mul_comm 1000]
  omega

theorem trunc32_thdDecT_wrapping (w : Word) :
    trunc32 (thdDecT w) = ((w.setWidth 32 &&& 0x01FF#32) <<< 7) * 1750#32 / 65535#32 - 450#32 := by
  have hmask := toNat_setWidth_and_temperatureMask w
  have hfield := and_temperatureMask w
  have hshift : ((w.setWidth 32 &&& 0x01FF#32) <<< 7).toNat = (w &&& 0x01FF#16).toNat <<< 7 := by
    rw [BitVec.toNat_shiftLeft, hmask, Nat.shiftLeft_eq]
    omega
  have hprod : (((w.setWidth 32 &&& 0x01FF#32) <<< 7) * 1750#32).toNat = ((w &&& 0x01FF#16).toNat <<< 7) * 1750 := by
    rw [toNat_mul_ofNat] <;> rw [hshift]
    rw [Nat.shiftLeft_eq]
    omega
  have hquotient : BitVec.ofNat 32 ((w &&& 0x01FF#16).toNat <<< 7 * 1750 / 65535) =
      ((w.setWidth 32 &&& 0x01FF#32) <<< 7) * 1750#32 / 65535#32 := by
    apply BitVec.eq_of_toNat_eq
    rw [toNat_udiv_ofNat (by decide), hprod, BitVec.toNat_ofNat, Nat.shiftLeft_eq]
    omega
  rw [← hquotient]
  exact trunc32_sub _ 450

/-- Settles O40: each computed field and each decoded value, with no value wrapping on the way. -/
theorem thresholdAgreesWith32BitArithmetic : Obligations.ThresholdAgreesWith32BitArithmetic := by
  intro sel a b w s hsel
  obtain ⟨t, hexec, hr0⟩ := exec_thdEnc_r0 hsel a b s
  refine ⟨⟨t, hexec, ?_, fun hp => ?_, fun hp => ?_⟩,
    _, exec_thdDec_some hsel w s, trunc32_thdDecH_wrapping w, trunc32_thdDecT_wrapping w⟩ <;> rw [hr0]
  · exact zext32_ushiftRight _
  · exact limitWord_humidity_wrapping hp _ _
  · exact limitWord_temperature_wrapping hp _ _

end Sys2Proof.Proofs
end

section
/-! PROOFS. Which operations write the results and the command, and the repeated operation (spec/10_state.md R23, R25,
spec/20_memory.md section 3). -/

namespace Sys2Proof.Proofs
open Sys2Proof.Machine

/-! ### The results -/

/-- What an operation can do to the results: keep both, write both in a successful CONV or THDDEC, or write R0 alone in a successful
THDENC. -/
theorem exec_results {i : Instr} {s t : State} (h : exec i s = .next t) :
    (t.r0 = s.r0 ∧ t.r1 = s.r1) ∨
    (t.status = 0x0000 ∧ ∃ sel a b, i = .conv a b ∨ i = .thdDec sel a) ∨
    (t.status = 0x0000 ∧ t.r1 = s.r1 ∧ ∃ sel a b, i = .thdEnc sel a b) := by
  rcases exec_cases i s with ⟨-, he⟩ | ⟨-, he⟩ | ⟨_, -, he⟩ | ⟨_, -, he⟩ | ⟨_, _, -, -, -, -, he⟩ | ⟨a, b, hi, he⟩ |
    ⟨sel, _, a, b, hi, -, -, he⟩ | ⟨sel, a, hi, -, he⟩ | ⟨_, _, -, -, -, he⟩ <;> cases he.symm.trans h
  · exact .inl ⟨rfl, rfl⟩
  · exact .inl ⟨rfl, rfl⟩
  · exact .inl ⟨rfl, rfl⟩
  · exact .inl ⟨rfl, rfl⟩
  · exact .inl ⟨rfl, rfl⟩
  · exact .inr (.inl ⟨rfl, 0, a, b, .inl hi⟩)
  · exact .inr (.inr ⟨rfl, rfl, sel, a, b, hi⟩)
  · exact .inr (.inl ⟨rfl, sel, a, 0, .inr hi⟩)
  · exact .inl ⟨rfl, rfl⟩

/-- A step without a reset keeps both results, or it accepts an operation and is that operation's `exec`. -/
theorem step_results {s t : State} {p : PortInput} {rest : List PortInput} (hin : s.inputs = p :: rest) (hrst : p.rst = false)
    (hstep : step s = .next t) :
    (t.r0 = s.r0 ∧ t.r1 = s.r1) ∨ ∃ i, Accepts p i ∧ exec i { s with inputs := rest } = .next t := by
  rw [step_cons hin] at hstep
  obtain ⟨hrst', -⟩ | ⟨-, he⟩ | ⟨-, -, -, he⟩ | ⟨-, i, hacc, he⟩ := clockEdge_cases p { s with inputs := rest }
  · exact absurd hrst' (by simp [hrst])
  · cases he.symm.trans hstep
    exact .inl ⟨rfl, rfl⟩
  · cases he.symm.trans hstep
    exact .inl ⟨rfl, rfl⟩
  · exact .inr ⟨i, hacc, he.symm.trans hstep⟩

/-- Settles O45: a step that changes a result accepts an operation, and `exec_results` tells which. -/
theorem onlyConversionsWriteTheResults : Obligations.OnlyConversionsWriteTheResults := by
  intro s t p rest hin hrst hstep
  obtain ⟨hr0, hr1⟩ | ⟨i, hacc, hexec⟩ := step_results hin hrst hstep
  · exact ⟨fun hne => absurd hr0 hne, fun hne => absurd hr1 hne⟩
  obtain ⟨hr0, hr1⟩ | ⟨hok, sel, a, b, rfl | rfl⟩ | ⟨hok, hr1, sel, a, b, rfl⟩ := exec_results hexec
  · exact ⟨fun hne => absurd hr0 hne, fun hne => absurd hr1 hne⟩
  · exact ⟨fun _ => ⟨hok, sel, a, b, .inl hacc⟩, fun _ => ⟨hok, sel, a, b, .inl hacc⟩⟩
  · exact ⟨fun _ => ⟨hok, sel, a, b, .inr (.inr hacc)⟩, fun _ => ⟨hok, sel, a, b, .inr hacc⟩⟩
  · exact ⟨fun _ => ⟨hok, sel, a, b, .inr (.inl hacc)⟩, fun hne => absurd hr1 hne⟩

/-! ### The command -/

/-- Settles O46: a success with a command writes CMD and CMD_VALID 1, every other end of an operation writes CMD_VALID 0 alone. -/
theorem commandIsWrittenOnlyWithCmdValid : Obligations.CommandIsWrittenOnlyWithCmdValid := by
  intro i s
  rcases exec_cases i s with ⟨hill, he⟩ | ⟨rfl, he⟩ | ⟨_, rfl, he⟩ | ⟨_, rfl, he⟩ | ⟨sel, _, rfl, hsel, -, -, he⟩ |
    ⟨_, _, rfl, he⟩ | ⟨sel, _, _, _, rfl, hsel, -, he⟩ | ⟨sel, a, rfl, hsel, -⟩ | ⟨sel, _, rfl, hsel, -, he⟩
  · exact ⟨_, he, by simp [hill]⟩
  · exact ⟨_, he, by simp [producesCommand, Instr.wellFormed]⟩
  · exact ⟨_, he, by simp [producesCommand]⟩
  · exact ⟨_, he, by simp [producesCommand]⟩
  · exact ⟨_, he, by simp [producesCommand, Instr.wellFormed, fixSelDefined, hsel]⟩
  · exact ⟨_, he, by simp [producesCommand]⟩
  · exact ⟨_, he, by simp [producesCommand, Instr.wellFormed, alertSelDefined, hsel]⟩
  · obtain ⟨v, w, he⟩ := exec_thdDec_writes hsel a
    exact ⟨_, he s, by simp [producesCommand]⟩
  · exact ⟨_, he, by simp [producesCommand, Instr.wellFormed, alertSelDefined, hsel]⟩

/-! ### The operation repeated -/

/-- A THDENC that draws nothing moves the counter by 0. -/
theorem limitDraws_of_drawsNothing {p : ThdRangePolicy} {sel : Sel} {a b : Word} (hsel : sel.toNat ≤ 3)
    (h : drawsNothing p (.thdEnc sel a b) = true) : limitDraws p (u16 a) (s16 b) = 0 := by
  obtain hge | hcomputed : 4 ≤ sel.toNat ∨ _ := of_decide_eq_true h
  · omega
  · exact limitDraws_eq_zero hcomputed

/-- Settles O50: what an operation writes depends on its operands, the parameters and the mode it leaves, which its first execution
does not change; for THDENC it depends on the counter of draws too, which stays where nothing is drawn. -/
theorem repeatedOperationIsIdempotent : Obligations.RepeatedOperationIsIdempotent := by
  intro i s hdraws
  rcases exec_cases i s with ⟨hill, he⟩ | ⟨rfl, he⟩ | ⟨a, rfl, he⟩ | ⟨a, rfl, he⟩ | ⟨_, _, rfl, -, hw, -, he⟩ |
    ⟨a, b, rfl, he⟩ | ⟨_, _, a, b, rfl, hsel, -, -⟩ | ⟨_, a, rfl, hsel, -⟩ | ⟨_, _, rfl, -, hx, he⟩
  · exact ⟨_, he, rfl, exec_illFormed hill _⟩
  · exact ⟨_, he, rfl, exec_measCmd _⟩
  · exact ⟨_, he, rfl, exec_setPm a _⟩
  · exact ⟨_, he, rfl, exec_enLpm a _⟩
  · exact ⟨_, he, rfl, exec_fixCmd_some hw⟩
  · exact ⟨_, he, rfl, exec_conv a b _⟩
  · have hzero := limitDraws_of_drawsNothing hsel hdraws
    exact ⟨_, exec_thdEnc_eq hsel hzero, rfl, exec_thdEnc_eq hsel hzero⟩
  · obtain ⟨v, w, he⟩ := exec_thdDec_writes hsel a
    exact ⟨_, he s, rfl, he _⟩
  · exact ⟨_, he, rfl, exec_thdRCmd_some hx _⟩

end Sys2Proof.Proofs
end

section
/-! PROOFS. What the block ignores of the samples (spec/30_encoding.md R51, R53, R55, spec/70_reset_and_hazards.md R150, R153). -/

namespace Sys2Proof.Proofs
open Sys2Proof.Machine

/-! ### The host's later samples -/

/-- No operation reads the host's list: with another list it does the same and keeps that list. -/
theorem exec_withInputs {i : Instr} {s t : State} (h : exec i s = .next t) (l : List PortInput) :
    exec i { s with inputs := l } = .next { t with inputs := l } := by
  rcases exec_cases i s with ⟨hill, he⟩ | ⟨rfl, he⟩ | ⟨a, rfl, he⟩ | ⟨a, rfl, he⟩ | ⟨_, _, rfl, -, hw, -, he⟩ |
    ⟨a, b, rfl, he⟩ | ⟨_, _, a, b, rfl, -, hx, he⟩ | ⟨_, a, rfl, hsel, he⟩ | ⟨_, _, rfl, -, hx, he⟩ <;>
    cases he.symm.trans h
  · exact exec_illFormed hill _
  · exact exec_measCmd _
  · exact exec_setPm a _
  · exact exec_enLpm a _
  · exact exec_fixCmd_some hw
  · exact exec_conv a b _
  · exact exec_thdEnc_some hx a b _
  · exact exec_thdDec_some hsel a _
  · exact exec_thdRCmd_some hx _

theorem clockEdge_withInputs {p : PortInput} {s t : State} (h : clockEdge p s = .next t) (l : List PortInput) :
    clockEdge p { s with inputs := l } = .next { t with inputs := l } := by
  obtain ⟨hrst, he⟩ | ⟨hidle, he⟩ | ⟨hrst, hreq, hres, he⟩ | ⟨-, i, hacc, he⟩ := clockEdge_cases p s
  · cases he.symm.trans h
    exact clockEdge_reset hrst _
  · cases he.symm.trans h
    exact clockEdge_idle hidle _
  · cases he.symm.trans h
    exact clockEdge_reserved hrst hreq hres _
  · exact (clockEdge_accepts hacc _).trans (exec_withInputs (he.symm.trans h) l)

/-! ### One sample -/

/-- Two unreserved requests that agree in what their operation reads decode to the same operation (R51). -/
theorem decode_sameRequest {r q : Request} (h : SameRequest r q) (hres : ¬ RawReserved r.ctrl) : decode q = decode r := by
  obtain ⟨hres', -⟩ | ⟨-, hresq, hop, hsel, ha, hb⟩ := h
  · exact absurd hres' hres
  obtain ⟨hres', -⟩ | ⟨-, i, hi⟩ := decode_error_or_ok r
  · exact absurd hres' hres
  have hlt : q.ctrl.toNat < 128 := Nat.not_le.mp fun hbit => hresq (.inl hbit)
  obtain ⟨-, hfields⟩ := (decodeReadsExactlyItsFields r i).mp hi
  rw [hi, decodeReadsExactlyItsFields]
  refine ⟨hlt, ?_⟩
  cases i <;> simp_all

/-- Two samples that differ only in what the block ignores make the same edge. -/
theorem clockEdge_sameSample {p q : PortInput} (h : SameSample p q) (s : State) : clockEdge p s = clockEdge q s := by
  obtain ⟨hrst, hsample⟩ := h
  obtain ⟨hp, he⟩ | ⟨⟨hp, hidle⟩, he⟩ | ⟨hp, hreq, hres, he⟩ | ⟨hres, i, ⟨hp, hreq, hi⟩, he⟩ := clockEdge_cases p s <;> rw [he]
  · rw [clockEdge_reset (hrst ▸ hp)]
  · obtain ⟨hreqq, -⟩ := hsample hp
    rw [clockEdge_idle ⟨hrst ▸ hp, hreqq ▸ hidle⟩]
  · obtain ⟨hreqq, hsame⟩ := hsample hp
    obtain ⟨-, hresq⟩ | ⟨hnres, -⟩ := hsame hreq
    · rw [clockEdge_reserved (hrst ▸ hp) (hreqq ▸ hreq) hresq]
    · exact absurd hres hnres
  · obtain ⟨hreqq, hsame⟩ := hsample hp
    rw [clockEdge_accepts ⟨hrst ▸ hp, hreqq ▸ hreq, (decode_sameRequest (hsame hreq) hres).trans hi⟩]

/-! ### Any number of edges -/

theorem observe_succ {n : Nat} {s t : State} (h : step s = .next t) : observe (n + 1) s = t.outputs :: observe n t := by
  simp only [observe, h]

/-- Two lists of samples that differ only in what the block ignores are observed alike from one state of the registers. -/
theorem observe_sameSamples (n : Nat) {s : State} {l : List PortInput} (h : List.Forall₂ SameSample s.inputs l) :
    observe n s = observe n { s with inputs := l } := by
  induction n generalizing s l with
  | zero => rfl
  | succ n ih =>
    generalize hin : s.inputs = inputs at h
    cases h with
    | nil => rw [← hin]
    | @cons p q rest rest' hpq hrest =>
      obtain ⟨t, hstep, -, htail⟩ := step_next s
      rw [hin, List.tail_cons] at htail
      have hedge : clockEdge p { s with inputs := rest } = .next t := (step_cons hin).symm.trans hstep
      have hstep' : step { s with inputs := q :: rest' } = .next { t with inputs := rest' } := by
        rw [step_cons rfl, ← clockEdge_sameSample hpq]
        exact clockEdge_withInputs hedge rest'
      rw [observe_succ hstep, observe_succ hstep']
      exact congrArg (t.outputs :: ·) (ih (htail.symm ▸ hrest))

/-- States that agree in registers, parameters and draws differ in the host's list alone. -/
theorem eq_withInputs_of_agree {s t : State} (houtputs : s.outputs = t.outputs) (hmode : s.activeMode = t.activeMode)
    (hconfig : s.config = t.config) (hdraws : s.draws = t.draws) : t = { s with inputs := t.inputs } := by
  cases s
  cases t
  simp_all [State.outputs]

/-- Settles O51, by `observe_sameSamples`. -/
theorem ignoredInputsAreUnobservable : Obligations.IgnoredInputsAreUnobservable := by
  intro n s t houtputs hmode hconfig hdraws hsame
  rw [eq_withInputs_of_agree houtputs hmode hconfig hdraws]
  exact observe_sameSamples n hsame

end Sys2Proof.Proofs
end
